-- ==== Sys2Proof/Word.lean ====
section
/-! DEFINITION. The two word types of the machine: the 8-bit data byte and the 16-bit address
(spec/10_state.md R20 to R22; spec/00_scope.md R5, R6). -/

namespace Sys2Proof

/-- A data byte, the spec's `u8`. -/
abbrev Byte := BitVec 8

/-- An address or a program counter, the spec's `u16`. Its arithmetic wraps modulo 65536. -/
abbrev Word := BitVec 16

end Sys2Proof
end

