-- ==== Sys2Proof/Machine/Bits.lean ====
section
/-! DEFINITION. Byte order, extension and bit-field helpers (spec/00_scope.md R6, R7;
spec/20_memory.md R69). -/

namespace Sys2Proof

/-- `w[15:8]`. -/
def hiByte (w : Word) : Byte := w.extractLsb' 8 8

/-- `w[7:0]`. -/
def loByte (w : Word) : Byte := w.extractLsb' 0 8

/-- `hi ++ lo` (R6). -/
def joinBytes (hi lo : Byte) : Word := hi ++ lo

/-- `zext_16` (R7). -/
def zext16 (b : Byte) : Word := b.setWidth 16

/-- `sext_16` (R7): the two's-complement value of `d`, as a word. -/
def sext16 (d : Byte) : Word := d.signExtend 16

/-- The bytes of `w`, least significant first, `n` of them. -/
def bytesOfNat : Nat → Nat → List Byte
  | 0, _ => []
  | n + 1, w => BitVec.ofNat 8 w :: bytesOfNat n (w / 256)

end Sys2Proof
end

