-- ==== Sys2Proof/Syntax.lean ====
section
/-! DEFINITION. The instruction set as syntax: one constructor of `Instr` for each of the 151 rows of
spec/opcode_table.json (spec/30_encoding.md R103, R105), and the types of the opcode table's columns
(spec/10_state.md R33). -/

namespace Sys2Proof

/-- The addressing modes of R100. -/
inductive Mode where
  | imp
  | acc
  | imm
  | zp
  | zpx
  | zpy
  | abs
  | absx
  | absy
  | ind
  | izx
  | izy
  | rel
deriving DecidableEq, Repr

/-- The 56 mnemonics (R103). -/
inductive Mnemonic where
  | brk | ora | asl | php | bpl | clc | jsr | and | bit | rol | plp | bmi | sec | rti
  | eor | lsr | pha | jmp | bvc | cli | rts | adc | ror | pla | bvs | sei | sta | sty
  | stx | dey | txa | bcc | tya | txs | ldy | lda | ldx | tay | tax | bcs | clv | tsx
  | cpy | cmp | dec | iny | dex | bne | cld | cpx | sbc | inc | inx | nop | beq | sed
deriving DecidableEq, Repr

/-- The instructions, in the order of the opcode table. An operand of format F2 is its byte `op8`, an
operand of format F3 its 16-bit value `hi ++ lo` (R100, R101). A branch carries its displacement
byte, not its target. -/
inductive Instr where
  /-- `00` BRK (R313). -/
  | brk
  /-- `01` ORA ($nn,X) (R244). -/
  | oraIzx (zp : Byte)
  /-- `05` ORA $nn (R244). -/
  | oraZp (zp : Byte)
  /-- `06` ASL $nn (R276). -/
  | aslZp (zp : Byte)
  /-- `08` PHP (R221). -/
  | php
  /-- `09` ORA #$nn (R244). -/
  | oraImm (v : Byte)
  /-- `0A` ASL A (R276). -/
  | aslAcc
  /-- `0D` ORA $nnnn (R244). -/
  | oraAbs (addr : Word)
  /-- `0E` ASL $nnnn (R276). -/
  | aslAbs (addr : Word)
  /-- `10` BPL target (R306). -/
  | bpl (d : Byte)
  /-- `11` ORA ($nn),Y (R244). -/
  | oraIzy (zp : Byte)
  /-- `15` ORA $nn,X (R244). -/
  | oraZpx (zp : Byte)
  /-- `16` ASL $nn,X (R276). -/
  | aslZpx (zp : Byte)
  /-- `18` CLC (R330). -/
  | clc
  /-- `19` ORA $nnnn,Y (R244). -/
  | oraAbsy (addr : Word)
  /-- `1D` ORA $nnnn,X (R244). -/
  | oraAbsx (addr : Word)
  /-- `1E` ASL $nnnn,X (R276). -/
  | aslAbsx (addr : Word)
  /-- `20` JSR $nnnn (R310). -/
  | jsr (addr : Word)
  /-- `21` AND ($nn,X) (R243). -/
  | andIzx (zp : Byte)
  /-- `24` BIT $nn (R246). -/
  | bitZp (zp : Byte)
  /-- `25` AND $nn (R243). -/
  | andZp (zp : Byte)
  /-- `26` ROL $nn (R278). -/
  | rolZp (zp : Byte)
  /-- `28` PLP (R223). -/
  | plp
  /-- `29` AND #$nn (R243). -/
  | andImm (v : Byte)
  /-- `2A` ROL A (R278). -/
  | rolAcc
  /-- `2C` BIT $nnnn (R246). -/
  | bitAbs (addr : Word)
  /-- `2D` AND $nnnn (R243). -/
  | andAbs (addr : Word)
  /-- `2E` ROL $nnnn (R278). -/
  | rolAbs (addr : Word)
  /-- `30` BMI target (R305). -/
  | bmi (d : Byte)
  /-- `31` AND ($nn),Y (R243). -/
  | andIzy (zp : Byte)
  /-- `35` AND $nn,X (R243). -/
  | andZpx (zp : Byte)
  /-- `36` ROL $nn,X (R278). -/
  | rolZpx (zp : Byte)
  /-- `38` SEC (R331). -/
  | sec
  /-- `39` AND $nnnn,Y (R243). -/
  | andAbsy (addr : Word)
  /-- `3D` AND $nnnn,X (R243). -/
  | andAbsx (addr : Word)
  /-- `3E` ROL $nnnn,X (R278). -/
  | rolAbsx (addr : Word)
  /-- `40` RTI (R312). -/
  | rti
  /-- `41` EOR ($nn,X) (R245). -/
  | eorIzx (zp : Byte)
  /-- `45` EOR $nn (R245). -/
  | eorZp (zp : Byte)
  /-- `46` LSR $nn (R277). -/
  | lsrZp (zp : Byte)
  /-- `48` PHA (R220). -/
  | pha
  /-- `49` EOR #$nn (R245). -/
  | eorImm (v : Byte)
  /-- `4A` LSR A (R277). -/
  | lsrAcc
  /-- `4C` JMP $nnnn (R309). -/
  | jmpAbs (addr : Word)
  /-- `4D` EOR $nnnn (R245). -/
  | eorAbs (addr : Word)
  /-- `4E` LSR $nnnn (R277). -/
  | lsrAbs (addr : Word)
  /-- `50` BVC target (R307). -/
  | bvc (d : Byte)
  /-- `51` EOR ($nn),Y (R245). -/
  | eorIzy (zp : Byte)
  /-- `55` EOR $nn,X (R245). -/
  | eorZpx (zp : Byte)
  /-- `56` LSR $nn,X (R277). -/
  | lsrZpx (zp : Byte)
  /-- `58` CLI (R332). -/
  | cli
  /-- `59` EOR $nnnn,Y (R245). -/
  | eorAbsy (addr : Word)
  /-- `5D` EOR $nnnn,X (R245). -/
  | eorAbsx (addr : Word)
  /-- `5E` LSR $nnnn,X (R277). -/
  | lsrAbsx (addr : Word)
  /-- `60` RTS (R311). -/
  | rts
  /-- `61` ADC ($nn,X) (R241). -/
  | adcIzx (zp : Byte)
  /-- `65` ADC $nn (R241). -/
  | adcZp (zp : Byte)
  /-- `66` ROR $nn (R279). -/
  | rorZp (zp : Byte)
  /-- `68` PLA (R222). -/
  | pla
  /-- `69` ADC #$nn (R241). -/
  | adcImm (v : Byte)
  /-- `6A` ROR A (R279). -/
  | rorAcc
  /-- `6C` JMP ($nnnn) (R309). -/
  | jmpInd (ptr : Word)
  /-- `6D` ADC $nnnn (R241). -/
  | adcAbs (addr : Word)
  /-- `6E` ROR $nnnn (R279). -/
  | rorAbs (addr : Word)
  /-- `70` BVS target (R308). -/
  | bvs (d : Byte)
  /-- `71` ADC ($nn),Y (R241). -/
  | adcIzy (zp : Byte)
  /-- `75` ADC $nn,X (R241). -/
  | adcZpx (zp : Byte)
  /-- `76` ROR $nn,X (R279). -/
  | rorZpx (zp : Byte)
  /-- `78` SEI (R333). -/
  | sei
  /-- `79` ADC $nnnn,Y (R241). -/
  | adcAbsy (addr : Word)
  /-- `7D` ADC $nnnn,X (R241). -/
  | adcAbsx (addr : Word)
  /-- `7E` ROR $nnnn,X (R279). -/
  | rorAbsx (addr : Word)
  /-- `81` STA ($nn,X) (R203). -/
  | staIzx (zp : Byte)
  /-- `84` STY $nn (R205). -/
  | styZp (zp : Byte)
  /-- `85` STA $nn (R203). -/
  | staZp (zp : Byte)
  /-- `86` STX $nn (R204). -/
  | stxZp (zp : Byte)
  /-- `88` DEY (R275). -/
  | dey
  /-- `8A` TXA (R208). -/
  | txa
  /-- `8C` STY $nnnn (R205). -/
  | styAbs (addr : Word)
  /-- `8D` STA $nnnn (R203). -/
  | staAbs (addr : Word)
  /-- `8E` STX $nnnn (R204). -/
  | stxAbs (addr : Word)
  /-- `90` BCC target (R301). -/
  | bcc (d : Byte)
  /-- `91` STA ($nn),Y (R203). -/
  | staIzy (zp : Byte)
  /-- `94` STY $nn,X (R205). -/
  | styZpx (zp : Byte)
  /-- `95` STA $nn,X (R203). -/
  | staZpx (zp : Byte)
  /-- `96` STX $nn,Y (R204). -/
  | stxZpy (zp : Byte)
  /-- `98` TYA (R209). -/
  | tya
  /-- `99` STA $nnnn,Y (R203). -/
  | staAbsy (addr : Word)
  /-- `9A` TXS (R211). -/
  | txs
  /-- `9D` STA $nnnn,X (R203). -/
  | staAbsx (addr : Word)
  /-- `A0` LDY #$nn (R202). -/
  | ldyImm (v : Byte)
  /-- `A1` LDA ($nn,X) (R200). -/
  | ldaIzx (zp : Byte)
  /-- `A2` LDX #$nn (R201). -/
  | ldxImm (v : Byte)
  /-- `A4` LDY $nn (R202). -/
  | ldyZp (zp : Byte)
  /-- `A5` LDA $nn (R200). -/
  | ldaZp (zp : Byte)
  /-- `A6` LDX $nn (R201). -/
  | ldxZp (zp : Byte)
  /-- `A8` TAY (R207). -/
  | tay
  /-- `A9` LDA #$nn (R200). -/
  | ldaImm (v : Byte)
  /-- `AA` TAX (R206). -/
  | tax
  /-- `AC` LDY $nnnn (R202). -/
  | ldyAbs (addr : Word)
  /-- `AD` LDA $nnnn (R200). -/
  | ldaAbs (addr : Word)
  /-- `AE` LDX $nnnn (R201). -/
  | ldxAbs (addr : Word)
  /-- `B0` BCS target (R302). -/
  | bcs (d : Byte)
  /-- `B1` LDA ($nn),Y (R200). -/
  | ldaIzy (zp : Byte)
  /-- `B4` LDY $nn,X (R202). -/
  | ldyZpx (zp : Byte)
  /-- `B5` LDA $nn,X (R200). -/
  | ldaZpx (zp : Byte)
  /-- `B6` LDX $nn,Y (R201). -/
  | ldxZpy (zp : Byte)
  /-- `B8` CLV (R336). -/
  | clv
  /-- `B9` LDA $nnnn,Y (R200). -/
  | ldaAbsy (addr : Word)
  /-- `BA` TSX (R210). -/
  | tsx
  /-- `BC` LDY $nnnn,X (R202). -/
  | ldyAbsx (addr : Word)
  /-- `BD` LDA $nnnn,X (R200). -/
  | ldaAbsx (addr : Word)
  /-- `BE` LDX $nnnn,Y (R201). -/
  | ldxAbsy (addr : Word)
  /-- `C0` CPY #$nn (R249). -/
  | cpyImm (v : Byte)
  /-- `C1` CMP ($nn,X) (R247). -/
  | cmpIzx (zp : Byte)
  /-- `C4` CPY $nn (R249). -/
  | cpyZp (zp : Byte)
  /-- `C5` CMP $nn (R247). -/
  | cmpZp (zp : Byte)
  /-- `C6` DEC $nn (R271). -/
  | decZp (zp : Byte)
  /-- `C8` INY (R273). -/
  | iny
  /-- `C9` CMP #$nn (R247). -/
  | cmpImm (v : Byte)
  /-- `CA` DEX (R274). -/
  | dex
  /-- `CC` CPY $nnnn (R249). -/
  | cpyAbs (addr : Word)
  /-- `CD` CMP $nnnn (R247). -/
  | cmpAbs (addr : Word)
  /-- `CE` DEC $nnnn (R271). -/
  | decAbs (addr : Word)
  /-- `D0` BNE target (R304). -/
  | bne (d : Byte)
  /-- `D1` CMP ($nn),Y (R247). -/
  | cmpIzy (zp : Byte)
  /-- `D5` CMP $nn,X (R247). -/
  | cmpZpx (zp : Byte)
  /-- `D6` DEC $nn,X (R271). -/
  | decZpx (zp : Byte)
  /-- `D8` CLD (R334). -/
  | cld
  /-- `D9` CMP $nnnn,Y (R247). -/
  | cmpAbsy (addr : Word)
  /-- `DD` CMP $nnnn,X (R247). -/
  | cmpAbsx (addr : Word)
  /-- `DE` DEC $nnnn,X (R271). -/
  | decAbsx (addr : Word)
  /-- `E0` CPX #$nn (R248). -/
  | cpxImm (v : Byte)
  /-- `E1` SBC ($nn,X) (R242). -/
  | sbcIzx (zp : Byte)
  /-- `E4` CPX $nn (R248). -/
  | cpxZp (zp : Byte)
  /-- `E5` SBC $nn (R242). -/
  | sbcZp (zp : Byte)
  /-- `E6` INC $nn (R270). -/
  | incZp (zp : Byte)
  /-- `E8` INX (R272). -/
  | inx
  /-- `E9` SBC #$nn (R242). -/
  | sbcImm (v : Byte)
  /-- `EA` NOP (R337). -/
  | nop
  /-- `EC` CPX $nnnn (R248). -/
  | cpxAbs (addr : Word)
  /-- `ED` SBC $nnnn (R242). -/
  | sbcAbs (addr : Word)
  /-- `EE` INC $nnnn (R270). -/
  | incAbs (addr : Word)
  /-- `F0` BEQ target (R303). -/
  | beq (d : Byte)
  /-- `F1` SBC ($nn),Y (R242). -/
  | sbcIzy (zp : Byte)
  /-- `F5` SBC $nn,X (R242). -/
  | sbcZpx (zp : Byte)
  /-- `F6` INC $nn,X (R270). -/
  | incZpx (zp : Byte)
  /-- `F8` SED (R335). -/
  | sed
  /-- `F9` SBC $nnnn,Y (R242). -/
  | sbcAbsy (addr : Word)
  /-- `FD` SBC $nnnn,X (R242). -/
  | sbcAbsx (addr : Word)
  /-- `FE` INC $nnnn,X (R270). -/
  | incAbsx (addr : Word)
deriving DecidableEq, Repr

/-- The descriptor of a present opcode (R33, R104). -/
structure Descriptor where
  mnemonic : Mnemonic
  mode : Mode
  cycles : Nat
  length : Nat
  controlsPc : Bool
  pagePenalty : Bool
deriving DecidableEq, Repr

/-- How a row's operand bytes make an instruction, by the format of R100: no operand, one operand
byte, or a 16-bit operand. -/
inductive Form where
  | f1 (i : Instr)
  | f2 (mk : Byte → Instr)
  | f3 (mk : Word → Instr)

/-- One row of the opcode table. -/
structure Row where
  opcode : Byte
  desc : Descriptor
  form : Form

end Sys2Proof
end

