-- ==== Sys2Proof/Decode.lean ====
section
/-! DEFINITION. The opcode table, the decoder and the encoder (spec/30_encoding.md R100 to R107;
spec/opcode_table.json). The decoder reads the table; the encoder is written out beside it. -/

namespace Sys2Proof

/-- Row 0x of the opcode map of R105. -/
def opcodeRow0 : List Row := [
  ⟨0x00, ⟨.brk, .imp, 7, 1, true, false⟩, .f1 .brk⟩,
  ⟨0x01, ⟨.ora, .izx, 6, 2, false, false⟩, .f2 .oraIzx⟩,
  ⟨0x05, ⟨.ora, .zp, 3, 2, false, false⟩, .f2 .oraZp⟩,
  ⟨0x06, ⟨.asl, .zp, 5, 2, false, false⟩, .f2 .aslZp⟩,
  ⟨0x08, ⟨.php, .imp, 3, 1, false, false⟩, .f1 .php⟩,
  ⟨0x09, ⟨.ora, .imm, 2, 2, false, false⟩, .f2 .oraImm⟩,
  ⟨0x0A, ⟨.asl, .acc, 2, 1, false, false⟩, .f1 .aslAcc⟩,
  ⟨0x0D, ⟨.ora, .abs, 4, 3, false, false⟩, .f3 .oraAbs⟩,
  ⟨0x0E, ⟨.asl, .abs, 6, 3, false, false⟩, .f3 .aslAbs⟩]

/-- Row 1x of the opcode map of R105. -/
def opcodeRow1 : List Row := [
  ⟨0x10, ⟨.bpl, .rel, 2, 2, false, false⟩, .f2 .bpl⟩,
  ⟨0x11, ⟨.ora, .izy, 5, 2, false, true⟩, .f2 .oraIzy⟩,
  ⟨0x15, ⟨.ora, .zpx, 4, 2, false, false⟩, .f2 .oraZpx⟩,
  ⟨0x16, ⟨.asl, .zpx, 6, 2, false, false⟩, .f2 .aslZpx⟩,
  ⟨0x18, ⟨.clc, .imp, 2, 1, false, false⟩, .f1 .clc⟩,
  ⟨0x19, ⟨.ora, .absy, 4, 3, false, true⟩, .f3 .oraAbsy⟩,
  ⟨0x1D, ⟨.ora, .absx, 4, 3, false, true⟩, .f3 .oraAbsx⟩,
  ⟨0x1E, ⟨.asl, .absx, 7, 3, false, false⟩, .f3 .aslAbsx⟩]

/-- Row 2x of the opcode map of R105. -/
def opcodeRow2 : List Row := [
  ⟨0x20, ⟨.jsr, .abs, 6, 3, true, false⟩, .f3 .jsr⟩,
  ⟨0x21, ⟨.and, .izx, 6, 2, false, false⟩, .f2 .andIzx⟩,
  ⟨0x24, ⟨.bit, .zp, 3, 2, false, false⟩, .f2 .bitZp⟩,
  ⟨0x25, ⟨.and, .zp, 3, 2, false, false⟩, .f2 .andZp⟩,
  ⟨0x26, ⟨.rol, .zp, 5, 2, false, false⟩, .f2 .rolZp⟩,
  ⟨0x28, ⟨.plp, .imp, 4, 1, false, false⟩, .f1 .plp⟩,
  ⟨0x29, ⟨.and, .imm, 2, 2, false, false⟩, .f2 .andImm⟩,
  ⟨0x2A, ⟨.rol, .acc, 2, 1, false, false⟩, .f1 .rolAcc⟩,
  ⟨0x2C, ⟨.bit, .abs, 4, 3, false, false⟩, .f3 .bitAbs⟩,
  ⟨0x2D, ⟨.and, .abs, 4, 3, false, false⟩, .f3 .andAbs⟩,
  ⟨0x2E, ⟨.rol, .abs, 6, 3, false, false⟩, .f3 .rolAbs⟩]

/-- Row 3x of the opcode map of R105. -/
def opcodeRow3 : List Row := [
  ⟨0x30, ⟨.bmi, .rel, 2, 2, false, false⟩, .f2 .bmi⟩,
  ⟨0x31, ⟨.and, .izy, 5, 2, false, true⟩, .f2 .andIzy⟩,
  ⟨0x35, ⟨.and, .zpx, 4, 2, false, false⟩, .f2 .andZpx⟩,
  ⟨0x36, ⟨.rol, .zpx, 6, 2, false, false⟩, .f2 .rolZpx⟩,
  ⟨0x38, ⟨.sec, .imp, 2, 1, false, false⟩, .f1 .sec⟩,
  ⟨0x39, ⟨.and, .absy, 4, 3, false, true⟩, .f3 .andAbsy⟩,
  ⟨0x3D, ⟨.and, .absx, 4, 3, false, true⟩, .f3 .andAbsx⟩,
  ⟨0x3E, ⟨.rol, .absx, 7, 3, false, false⟩, .f3 .rolAbsx⟩]

/-- Row 4x of the opcode map of R105. -/
def opcodeRow4 : List Row := [
  ⟨0x40, ⟨.rti, .imp, 6, 1, true, false⟩, .f1 .rti⟩,
  ⟨0x41, ⟨.eor, .izx, 6, 2, false, false⟩, .f2 .eorIzx⟩,
  ⟨0x45, ⟨.eor, .zp, 3, 2, false, false⟩, .f2 .eorZp⟩,
  ⟨0x46, ⟨.lsr, .zp, 5, 2, false, false⟩, .f2 .lsrZp⟩,
  ⟨0x48, ⟨.pha, .imp, 3, 1, false, false⟩, .f1 .pha⟩,
  ⟨0x49, ⟨.eor, .imm, 2, 2, false, false⟩, .f2 .eorImm⟩,
  ⟨0x4A, ⟨.lsr, .acc, 2, 1, false, false⟩, .f1 .lsrAcc⟩,
  ⟨0x4C, ⟨.jmp, .abs, 3, 3, true, false⟩, .f3 .jmpAbs⟩,
  ⟨0x4D, ⟨.eor, .abs, 4, 3, false, false⟩, .f3 .eorAbs⟩,
  ⟨0x4E, ⟨.lsr, .abs, 6, 3, false, false⟩, .f3 .lsrAbs⟩]

/-- Row 5x of the opcode map of R105. -/
def opcodeRow5 : List Row := [
  ⟨0x50, ⟨.bvc, .rel, 2, 2, false, false⟩, .f2 .bvc⟩,
  ⟨0x51, ⟨.eor, .izy, 5, 2, false, true⟩, .f2 .eorIzy⟩,
  ⟨0x55, ⟨.eor, .zpx, 4, 2, false, false⟩, .f2 .eorZpx⟩,
  ⟨0x56, ⟨.lsr, .zpx, 6, 2, false, false⟩, .f2 .lsrZpx⟩,
  ⟨0x58, ⟨.cli, .imp, 2, 1, false, false⟩, .f1 .cli⟩,
  ⟨0x59, ⟨.eor, .absy, 4, 3, false, true⟩, .f3 .eorAbsy⟩,
  ⟨0x5D, ⟨.eor, .absx, 4, 3, false, true⟩, .f3 .eorAbsx⟩,
  ⟨0x5E, ⟨.lsr, .absx, 7, 3, false, false⟩, .f3 .lsrAbsx⟩]

/-- Row 6x of the opcode map of R105. -/
def opcodeRow6 : List Row := [
  ⟨0x60, ⟨.rts, .imp, 6, 1, true, false⟩, .f1 .rts⟩,
  ⟨0x61, ⟨.adc, .izx, 6, 2, false, false⟩, .f2 .adcIzx⟩,
  ⟨0x65, ⟨.adc, .zp, 3, 2, false, false⟩, .f2 .adcZp⟩,
  ⟨0x66, ⟨.ror, .zp, 5, 2, false, false⟩, .f2 .rorZp⟩,
  ⟨0x68, ⟨.pla, .imp, 4, 1, false, false⟩, .f1 .pla⟩,
  ⟨0x69, ⟨.adc, .imm, 2, 2, false, false⟩, .f2 .adcImm⟩,
  ⟨0x6A, ⟨.ror, .acc, 2, 1, false, false⟩, .f1 .rorAcc⟩,
  ⟨0x6C, ⟨.jmp, .ind, 5, 3, true, false⟩, .f3 .jmpInd⟩,
  ⟨0x6D, ⟨.adc, .abs, 4, 3, false, false⟩, .f3 .adcAbs⟩,
  ⟨0x6E, ⟨.ror, .abs, 6, 3, false, false⟩, .f3 .rorAbs⟩]

/-- Row 7x of the opcode map of R105. -/
def opcodeRow7 : List Row := [
  ⟨0x70, ⟨.bvs, .rel, 2, 2, false, false⟩, .f2 .bvs⟩,
  ⟨0x71, ⟨.adc, .izy, 5, 2, false, true⟩, .f2 .adcIzy⟩,
  ⟨0x75, ⟨.adc, .zpx, 4, 2, false, false⟩, .f2 .adcZpx⟩,
  ⟨0x76, ⟨.ror, .zpx, 6, 2, false, false⟩, .f2 .rorZpx⟩,
  ⟨0x78, ⟨.sei, .imp, 2, 1, false, false⟩, .f1 .sei⟩,
  ⟨0x79, ⟨.adc, .absy, 4, 3, false, true⟩, .f3 .adcAbsy⟩,
  ⟨0x7D, ⟨.adc, .absx, 4, 3, false, true⟩, .f3 .adcAbsx⟩,
  ⟨0x7E, ⟨.ror, .absx, 7, 3, false, false⟩, .f3 .rorAbsx⟩]

/-- Row 8x of the opcode map of R105. -/
def opcodeRow8 : List Row := [
  ⟨0x81, ⟨.sta, .izx, 6, 2, false, false⟩, .f2 .staIzx⟩,
  ⟨0x84, ⟨.sty, .zp, 3, 2, false, false⟩, .f2 .styZp⟩,
  ⟨0x85, ⟨.sta, .zp, 3, 2, false, false⟩, .f2 .staZp⟩,
  ⟨0x86, ⟨.stx, .zp, 3, 2, false, false⟩, .f2 .stxZp⟩,
  ⟨0x88, ⟨.dey, .imp, 2, 1, false, false⟩, .f1 .dey⟩,
  ⟨0x8A, ⟨.txa, .imp, 2, 1, false, false⟩, .f1 .txa⟩,
  ⟨0x8C, ⟨.sty, .abs, 4, 3, false, false⟩, .f3 .styAbs⟩,
  ⟨0x8D, ⟨.sta, .abs, 4, 3, false, false⟩, .f3 .staAbs⟩,
  ⟨0x8E, ⟨.stx, .abs, 4, 3, false, false⟩, .f3 .stxAbs⟩]

/-- Row 9x of the opcode map of R105. -/
def opcodeRow9 : List Row := [
  ⟨0x90, ⟨.bcc, .rel, 2, 2, false, false⟩, .f2 .bcc⟩,
  ⟨0x91, ⟨.sta, .izy, 6, 2, false, false⟩, .f2 .staIzy⟩,
  ⟨0x94, ⟨.sty, .zpx, 4, 2, false, false⟩, .f2 .styZpx⟩,
  ⟨0x95, ⟨.sta, .zpx, 4, 2, false, false⟩, .f2 .staZpx⟩,
  ⟨0x96, ⟨.stx, .zpy, 4, 2, false, false⟩, .f2 .stxZpy⟩,
  ⟨0x98, ⟨.tya, .imp, 2, 1, false, false⟩, .f1 .tya⟩,
  ⟨0x99, ⟨.sta, .absy, 5, 3, false, false⟩, .f3 .staAbsy⟩,
  ⟨0x9A, ⟨.txs, .imp, 2, 1, false, false⟩, .f1 .txs⟩,
  ⟨0x9D, ⟨.sta, .absx, 5, 3, false, false⟩, .f3 .staAbsx⟩]

/-- Row Ax of the opcode map of R105. -/
def opcodeRowA : List Row := [
  ⟨0xA0, ⟨.ldy, .imm, 2, 2, false, false⟩, .f2 .ldyImm⟩,
  ⟨0xA1, ⟨.lda, .izx, 6, 2, false, false⟩, .f2 .ldaIzx⟩,
  ⟨0xA2, ⟨.ldx, .imm, 2, 2, false, false⟩, .f2 .ldxImm⟩,
  ⟨0xA4, ⟨.ldy, .zp, 3, 2, false, false⟩, .f2 .ldyZp⟩,
  ⟨0xA5, ⟨.lda, .zp, 3, 2, false, false⟩, .f2 .ldaZp⟩,
  ⟨0xA6, ⟨.ldx, .zp, 3, 2, false, false⟩, .f2 .ldxZp⟩,
  ⟨0xA8, ⟨.tay, .imp, 2, 1, false, false⟩, .f1 .tay⟩,
  ⟨0xA9, ⟨.lda, .imm, 2, 2, false, false⟩, .f2 .ldaImm⟩,
  ⟨0xAA, ⟨.tax, .imp, 2, 1, false, false⟩, .f1 .tax⟩,
  ⟨0xAC, ⟨.ldy, .abs, 4, 3, false, false⟩, .f3 .ldyAbs⟩,
  ⟨0xAD, ⟨.lda, .abs, 4, 3, false, false⟩, .f3 .ldaAbs⟩,
  ⟨0xAE, ⟨.ldx, .abs, 4, 3, false, false⟩, .f3 .ldxAbs⟩]

/-- Row Bx of the opcode map of R105. -/
def opcodeRowB : List Row := [
  ⟨0xB0, ⟨.bcs, .rel, 2, 2, false, false⟩, .f2 .bcs⟩,
  ⟨0xB1, ⟨.lda, .izy, 5, 2, false, true⟩, .f2 .ldaIzy⟩,
  ⟨0xB4, ⟨.ldy, .zpx, 4, 2, false, false⟩, .f2 .ldyZpx⟩,
  ⟨0xB5, ⟨.lda, .zpx, 4, 2, false, false⟩, .f2 .ldaZpx⟩,
  ⟨0xB6, ⟨.ldx, .zpy, 4, 2, false, false⟩, .f2 .ldxZpy⟩,
  ⟨0xB8, ⟨.clv, .imp, 2, 1, false, false⟩, .f1 .clv⟩,
  ⟨0xB9, ⟨.lda, .absy, 4, 3, false, true⟩, .f3 .ldaAbsy⟩,
  ⟨0xBA, ⟨.tsx, .imp, 2, 1, false, false⟩, .f1 .tsx⟩,
  ⟨0xBC, ⟨.ldy, .absx, 4, 3, false, true⟩, .f3 .ldyAbsx⟩,
  ⟨0xBD, ⟨.lda, .absx, 4, 3, false, true⟩, .f3 .ldaAbsx⟩,
  ⟨0xBE, ⟨.ldx, .absy, 4, 3, false, true⟩, .f3 .ldxAbsy⟩]

/-- Row Cx of the opcode map of R105. -/
def opcodeRowC : List Row := [
  ⟨0xC0, ⟨.cpy, .imm, 2, 2, false, false⟩, .f2 .cpyImm⟩,
  ⟨0xC1, ⟨.cmp, .izx, 6, 2, false, false⟩, .f2 .cmpIzx⟩,
  ⟨0xC4, ⟨.cpy, .zp, 3, 2, false, false⟩, .f2 .cpyZp⟩,
  ⟨0xC5, ⟨.cmp, .zp, 3, 2, false, false⟩, .f2 .cmpZp⟩,
  ⟨0xC6, ⟨.dec, .zp, 5, 2, false, false⟩, .f2 .decZp⟩,
  ⟨0xC8, ⟨.iny, .imp, 2, 1, false, false⟩, .f1 .iny⟩,
  ⟨0xC9, ⟨.cmp, .imm, 2, 2, false, false⟩, .f2 .cmpImm⟩,
  ⟨0xCA, ⟨.dex, .imp, 2, 1, false, false⟩, .f1 .dex⟩,
  ⟨0xCC, ⟨.cpy, .abs, 4, 3, false, false⟩, .f3 .cpyAbs⟩,
  ⟨0xCD, ⟨.cmp, .abs, 4, 3, false, false⟩, .f3 .cmpAbs⟩,
  ⟨0xCE, ⟨.dec, .abs, 6, 3, false, false⟩, .f3 .decAbs⟩]

/-- Row Dx of the opcode map of R105. -/
def opcodeRowD : List Row := [
  ⟨0xD0, ⟨.bne, .rel, 2, 2, false, false⟩, .f2 .bne⟩,
  ⟨0xD1, ⟨.cmp, .izy, 5, 2, false, true⟩, .f2 .cmpIzy⟩,
  ⟨0xD5, ⟨.cmp, .zpx, 4, 2, false, false⟩, .f2 .cmpZpx⟩,
  ⟨0xD6, ⟨.dec, .zpx, 6, 2, false, false⟩, .f2 .decZpx⟩,
  ⟨0xD8, ⟨.cld, .imp, 2, 1, false, false⟩, .f1 .cld⟩,
  ⟨0xD9, ⟨.cmp, .absy, 4, 3, false, true⟩, .f3 .cmpAbsy⟩,
  ⟨0xDD, ⟨.cmp, .absx, 4, 3, false, true⟩, .f3 .cmpAbsx⟩,
  ⟨0xDE, ⟨.dec, .absx, 7, 3, false, false⟩, .f3 .decAbsx⟩]

/-- Row Ex of the opcode map of R105. -/
def opcodeRowE : List Row := [
  ⟨0xE0, ⟨.cpx, .imm, 2, 2, false, false⟩, .f2 .cpxImm⟩,
  ⟨0xE1, ⟨.sbc, .izx, 6, 2, false, false⟩, .f2 .sbcIzx⟩,
  ⟨0xE4, ⟨.cpx, .zp, 3, 2, false, false⟩, .f2 .cpxZp⟩,
  ⟨0xE5, ⟨.sbc, .zp, 3, 2, false, false⟩, .f2 .sbcZp⟩,
  ⟨0xE6, ⟨.inc, .zp, 5, 2, false, false⟩, .f2 .incZp⟩,
  ⟨0xE8, ⟨.inx, .imp, 2, 1, false, false⟩, .f1 .inx⟩,
  ⟨0xE9, ⟨.sbc, .imm, 2, 2, false, false⟩, .f2 .sbcImm⟩,
  ⟨0xEA, ⟨.nop, .imp, 2, 1, false, false⟩, .f1 .nop⟩,
  ⟨0xEC, ⟨.cpx, .abs, 4, 3, false, false⟩, .f3 .cpxAbs⟩,
  ⟨0xED, ⟨.sbc, .abs, 4, 3, false, false⟩, .f3 .sbcAbs⟩,
  ⟨0xEE, ⟨.inc, .abs, 6, 3, false, false⟩, .f3 .incAbs⟩]

/-- Row Fx of the opcode map of R105. -/
def opcodeRowF : List Row := [
  ⟨0xF0, ⟨.beq, .rel, 2, 2, false, false⟩, .f2 .beq⟩,
  ⟨0xF1, ⟨.sbc, .izy, 5, 2, false, true⟩, .f2 .sbcIzy⟩,
  ⟨0xF5, ⟨.sbc, .zpx, 4, 2, false, false⟩, .f2 .sbcZpx⟩,
  ⟨0xF6, ⟨.inc, .zpx, 6, 2, false, false⟩, .f2 .incZpx⟩,
  ⟨0xF8, ⟨.sed, .imp, 2, 1, false, false⟩, .f1 .sed⟩,
  ⟨0xF9, ⟨.sbc, .absy, 4, 3, false, true⟩, .f3 .sbcAbsy⟩,
  ⟨0xFD, ⟨.sbc, .absx, 4, 3, false, true⟩, .f3 .sbcAbsx⟩,
  ⟨0xFE, ⟨.inc, .absx, 7, 3, false, false⟩, .f3 .incAbsx⟩]

/-- The opcode table (R103): the 151 present opcodes. A byte that no row names is an absent slot. -/
def opcodeTable : List Row :=
  opcodeRow0 ++ opcodeRow1 ++ opcodeRow2 ++ opcodeRow3 ++ opcodeRow4 ++ opcodeRow5 ++ opcodeRow6 ++
  opcodeRow7 ++ opcodeRow8 ++ opcodeRow9 ++ opcodeRowA ++ opcodeRowB ++ opcodeRowC ++ opcodeRowD ++
  opcodeRowE ++ opcodeRowF

/-- The row of an opcode byte, by the byte alone (R123). -/
def lookupOpcode (op : Byte) : Option Row := opcodeTable.find? (fun r => r.opcode == op)

/-- What decoding a list of bytes gives: an instruction and the bytes after it; an absent opcode
(R106); or bytes that end before the instruction does. -/
inductive Decoded where
  | instr (i : Instr) (rest : List Byte)
  | absent (op : Byte)
  | truncated
deriving DecidableEq, Repr

/-- The operands of a form, read from the bytes after the opcode (R100, R101: low byte first). -/
def decodeForm : Form → List Byte → Decoded
  | .f1 i, rest => .instr i rest
  | .f2 mk, b1 :: rest => .instr (mk b1) rest
  | .f3 mk, b1 :: b2 :: rest => .instr (mk (joinBytes b2 b1)) rest
  | _, _ => .truncated

/-- Decode one instruction from the front of a list of bytes, by the opcode byte alone (R123). -/
def decode : List Byte → Decoded
  | [] => .truncated
  | op :: rest =>
    match lookupOpcode op with
    | none => .absent op
    | some r => decodeForm r.form rest

/-- The bytes of an instruction, in memory order (R100, R105). -/
def encode : Instr → List Byte
  | .brk => [0x00]
  | .oraIzx zp => [0x01, zp]
  | .oraZp zp => [0x05, zp]
  | .aslZp zp => [0x06, zp]
  | .php => [0x08]
  | .oraImm v => [0x09, v]
  | .aslAcc => [0x0A]
  | .oraAbs addr => [0x0D, loByte addr, hiByte addr]
  | .aslAbs addr => [0x0E, loByte addr, hiByte addr]
  | .bpl d => [0x10, d]
  | .oraIzy zp => [0x11, zp]
  | .oraZpx zp => [0x15, zp]
  | .aslZpx zp => [0x16, zp]
  | .clc => [0x18]
  | .oraAbsy addr => [0x19, loByte addr, hiByte addr]
  | .oraAbsx addr => [0x1D, loByte addr, hiByte addr]
  | .aslAbsx addr => [0x1E, loByte addr, hiByte addr]
  | .jsr addr => [0x20, loByte addr, hiByte addr]
  | .andIzx zp => [0x21, zp]
  | .bitZp zp => [0x24, zp]
  | .andZp zp => [0x25, zp]
  | .rolZp zp => [0x26, zp]
  | .plp => [0x28]
  | .andImm v => [0x29, v]
  | .rolAcc => [0x2A]
  | .bitAbs addr => [0x2C, loByte addr, hiByte addr]
  | .andAbs addr => [0x2D, loByte addr, hiByte addr]
  | .rolAbs addr => [0x2E, loByte addr, hiByte addr]
  | .bmi d => [0x30, d]
  | .andIzy zp => [0x31, zp]
  | .andZpx zp => [0x35, zp]
  | .rolZpx zp => [0x36, zp]
  | .sec => [0x38]
  | .andAbsy addr => [0x39, loByte addr, hiByte addr]
  | .andAbsx addr => [0x3D, loByte addr, hiByte addr]
  | .rolAbsx addr => [0x3E, loByte addr, hiByte addr]
  | .rti => [0x40]
  | .eorIzx zp => [0x41, zp]
  | .eorZp zp => [0x45, zp]
  | .lsrZp zp => [0x46, zp]
  | .pha => [0x48]
  | .eorImm v => [0x49, v]
  | .lsrAcc => [0x4A]
  | .jmpAbs addr => [0x4C, loByte addr, hiByte addr]
  | .eorAbs addr => [0x4D, loByte addr, hiByte addr]
  | .lsrAbs addr => [0x4E, loByte addr, hiByte addr]
  | .bvc d => [0x50, d]
  | .eorIzy zp => [0x51, zp]
  | .eorZpx zp => [0x55, zp]
  | .lsrZpx zp => [0x56, zp]
  | .cli => [0x58]
  | .eorAbsy addr => [0x59, loByte addr, hiByte addr]
  | .eorAbsx addr => [0x5D, loByte addr, hiByte addr]
  | .lsrAbsx addr => [0x5E, loByte addr, hiByte addr]
  | .rts => [0x60]
  | .adcIzx zp => [0x61, zp]
  | .adcZp zp => [0x65, zp]
  | .rorZp zp => [0x66, zp]
  | .pla => [0x68]
  | .adcImm v => [0x69, v]
  | .rorAcc => [0x6A]
  | .jmpInd ptr => [0x6C, loByte ptr, hiByte ptr]
  | .adcAbs addr => [0x6D, loByte addr, hiByte addr]
  | .rorAbs addr => [0x6E, loByte addr, hiByte addr]
  | .bvs d => [0x70, d]
  | .adcIzy zp => [0x71, zp]
  | .adcZpx zp => [0x75, zp]
  | .rorZpx zp => [0x76, zp]
  | .sei => [0x78]
  | .adcAbsy addr => [0x79, loByte addr, hiByte addr]
  | .adcAbsx addr => [0x7D, loByte addr, hiByte addr]
  | .rorAbsx addr => [0x7E, loByte addr, hiByte addr]
  | .staIzx zp => [0x81, zp]
  | .styZp zp => [0x84, zp]
  | .staZp zp => [0x85, zp]
  | .stxZp zp => [0x86, zp]
  | .dey => [0x88]
  | .txa => [0x8A]
  | .styAbs addr => [0x8C, loByte addr, hiByte addr]
  | .staAbs addr => [0x8D, loByte addr, hiByte addr]
  | .stxAbs addr => [0x8E, loByte addr, hiByte addr]
  | .bcc d => [0x90, d]
  | .staIzy zp => [0x91, zp]
  | .styZpx zp => [0x94, zp]
  | .staZpx zp => [0x95, zp]
  | .stxZpy zp => [0x96, zp]
  | .tya => [0x98]
  | .staAbsy addr => [0x99, loByte addr, hiByte addr]
  | .txs => [0x9A]
  | .staAbsx addr => [0x9D, loByte addr, hiByte addr]
  | .ldyImm v => [0xA0, v]
  | .ldaIzx zp => [0xA1, zp]
  | .ldxImm v => [0xA2, v]
  | .ldyZp zp => [0xA4, zp]
  | .ldaZp zp => [0xA5, zp]
  | .ldxZp zp => [0xA6, zp]
  | .tay => [0xA8]
  | .ldaImm v => [0xA9, v]
  | .tax => [0xAA]
  | .ldyAbs addr => [0xAC, loByte addr, hiByte addr]
  | .ldaAbs addr => [0xAD, loByte addr, hiByte addr]
  | .ldxAbs addr => [0xAE, loByte addr, hiByte addr]
  | .bcs d => [0xB0, d]
  | .ldaIzy zp => [0xB1, zp]
  | .ldyZpx zp => [0xB4, zp]
  | .ldaZpx zp => [0xB5, zp]
  | .ldxZpy zp => [0xB6, zp]
  | .clv => [0xB8]
  | .ldaAbsy addr => [0xB9, loByte addr, hiByte addr]
  | .tsx => [0xBA]
  | .ldyAbsx addr => [0xBC, loByte addr, hiByte addr]
  | .ldaAbsx addr => [0xBD, loByte addr, hiByte addr]
  | .ldxAbsy addr => [0xBE, loByte addr, hiByte addr]
  | .cpyImm v => [0xC0, v]
  | .cmpIzx zp => [0xC1, zp]
  | .cpyZp zp => [0xC4, zp]
  | .cmpZp zp => [0xC5, zp]
  | .decZp zp => [0xC6, zp]
  | .iny => [0xC8]
  | .cmpImm v => [0xC9, v]
  | .dex => [0xCA]
  | .cpyAbs addr => [0xCC, loByte addr, hiByte addr]
  | .cmpAbs addr => [0xCD, loByte addr, hiByte addr]
  | .decAbs addr => [0xCE, loByte addr, hiByte addr]
  | .bne d => [0xD0, d]
  | .cmpIzy zp => [0xD1, zp]
  | .cmpZpx zp => [0xD5, zp]
  | .decZpx zp => [0xD6, zp]
  | .cld => [0xD8]
  | .cmpAbsy addr => [0xD9, loByte addr, hiByte addr]
  | .cmpAbsx addr => [0xDD, loByte addr, hiByte addr]
  | .decAbsx addr => [0xDE, loByte addr, hiByte addr]
  | .cpxImm v => [0xE0, v]
  | .sbcIzx zp => [0xE1, zp]
  | .cpxZp zp => [0xE4, zp]
  | .sbcZp zp => [0xE5, zp]
  | .incZp zp => [0xE6, zp]
  | .inx => [0xE8]
  | .sbcImm v => [0xE9, v]
  | .nop => [0xEA]
  | .cpxAbs addr => [0xEC, loByte addr, hiByte addr]
  | .sbcAbs addr => [0xED, loByte addr, hiByte addr]
  | .incAbs addr => [0xEE, loByte addr, hiByte addr]
  | .beq d => [0xF0, d]
  | .sbcIzy zp => [0xF1, zp]
  | .sbcZpx zp => [0xF5, zp]
  | .incZpx zp => [0xF6, zp]
  | .sed => [0xF8]
  | .sbcAbsy addr => [0xF9, loByte addr, hiByte addr]
  | .sbcAbsx addr => [0xFD, loByte addr, hiByte addr]
  | .incAbsx addr => [0xFE, loByte addr, hiByte addr]

/-- The opcode byte of an instruction. -/
def Instr.opcode (i : Instr) : Byte := (encode i).headD 0

/-- The descriptor of an instruction's opcode (R33). -/
def Instr.descriptor (i : Instr) : Option Descriptor := (lookupOpcode i.opcode).map (·.desc)

/-- The bytes of the longest instruction that begins with the `nbits` low bits of `w`, byte 0 first;
every bit above is 0. -/
def tableWordBytes (nbits w : Nat) : List Byte := bytesOfNat 3 (w % 2 ^ nbits)

/-- The instruction the decoder reads from a word numbered as the opcode table numbers its bits. -/
def decodeTableWord (nbits w : Nat) : Option Instr :=
  match decode (tableWordBytes nbits w) with
  | .instr i _ => some i
  | .absent _ | .truncated => none

end Sys2Proof
end

