-- ==== Sys2Proof/Config.lean ====
section
/-! DEFINITION. The implementation parameters of spec/00_scope.md R5 that a machine is built with,
and the free values: opaque constants without a body, of which nothing can be proved. -/

namespace Sys2Proof

/-- `DECIMAL_NVZ` (R5, R250): whether N, V and Z after a decimal ADC or SBC follow the formulas of
R241 and R242, or are free values. -/
inductive DecimalNvz where
  | exact
  | draw
deriving DecidableEq, Repr

/-- `STEPPER_MODEL` (R5, R410): whether one step of the head is half a track or a whole track. -/
inductive StepperModel where
  | halfTrack
  | wholeTrackPerPhase
deriving DecidableEq, Repr

/-- The OPEN parameters of R5, with the defaults R5 gives. They are fixed for a machine: no step and
no host call changes them. `INITIAL_PAGE_MODES` and the extra hooks are arguments of construction
(R550) and live in the state's own page table and hook lists. -/
structure Config where
  /-- `JMP_IND_WRAP` (R132). -/
  jmpIndWrap : Bool := true
  /-- `DECIMAL_NVZ` (R250). -/
  decimalNvz : DecimalNvz := .exact
  /-- `HAS_IRQ_INPUT` (R505, R506). -/
  hasIrqInput : Bool := false
  /-- `ROM_BASE` (R553): `coldReset` clears the bytes below it. -/
  romBase : Nat := 0xD000
  /-- `DISK_SLOT` (R400), 1 to 7. -/
  diskSlot : Nat := 6
  /-- `DISK_ROM` (R402): the 256 bytes of the card ROM. A byte the list does not supply is the free
  value `Config.diskRomByte` (assumption log 4). -/
  diskRom : List Byte := []
  /-- `STEPPER_MODEL` (R410, R411). -/
  stepper : StepperModel := .halfTrack
  /-- `GAP1` (R470). -/
  gap1 : Nat := 40
  /-- `GAP2` (R470). -/
  gap2 : Nat := 6
  /-- `GAP3` (R470). -/
  gap3 : Nat := 20
  /-- `VOLUME` (R471). -/
  volume : Byte := 254
deriving DecidableEq, Repr

/-- The default configuration of R5. -/
def Config.default : Config := {}

/-- FREE VALUE: the bit drawn by draw number `n` of a run (R8 `draw`, R250; assumption log 3).
`State.draws` counts the draws taken. -/
opaque Config.freeBit : Nat → Bool

/-- FREE VALUE: the card ROM byte at an offset for which the configuration supplies none
(R402, I7; assumption log 4). -/
opaque Config.diskRomByte : Nat → Byte

/-- FREE VALUE: what the callback `fn` of the peripheral `dev` does (R32, R78, I16; assumption log 6).
From the peripheral's state, the address and the written value (`none` for a read) it gives the
callback's result and the peripheral's new state. -/
opaque Config.extraCallback (dev fn st : Nat) (a : Word) (v : Option Byte) : Option Byte × Nat

/-- FREE VALUE: the nibble at a track and position outside every track buffer. No run reaches such a
position: the drive's invariant rules it out (R35, R412; assumption log 8). -/
opaque Config.offTrackNibble (track position : Nat) : Byte

end Sys2Proof
end

