-- ==== Sys2Proof/Machine/State.lean ====
section
/-! DEFINITION. Every piece of state the spec gives the machine (spec/10_state.md), as plain data, and
the state right after reset. -/

namespace Sys2Proof.Machine

/-- The status flags: seven independent Booleans, with no storage for bit 5 (R23). -/
structure Flags where
  n : Bool
  v : Bool
  b : Bool
  d : Bool
  i : Bool
  z : Bool
  c : Bool
deriving DecidableEq, Repr

/-- The tag of a 256-byte page (R31). -/
inductive PageMode where
  | readWrite
  | readOnly
  | unmapped
deriving DecidableEq, Repr

/-- A hook's callback, by name (R32): what it does is `runCallback` in Machine/Ops.lean.
`diskStrobe`, `diskRom` and `diskRomWrite` are the Disk II's (R401). `extra dev fn` is callback `fn` of
the opaque peripheral `dev` (R78). `const` answers every access with one result and `recorder` notes
every access and answers `none`; both are plain peripherals a host may install, such as those of
spec/95_test_vectors.md sections 4.2 and 5 (assumption log 7). -/
inductive Callback where
  | diskStrobe
  | diskRom
  | diskRomWrite
  | const (r : Option Byte)
  | recorder
  | extra (dev fn : Nat)
deriving DecidableEq, Repr

/-- An interceptor over the inclusive range `lo` to `hi` (R32). -/
structure Hook where
  lo : Word
  hi : Word
  bypass : Bool
  callback : Callback
deriving DecidableEq, Repr

/-- One bus access, as the recorder callback notes it. -/
inductive Access where
  | rd (a : Word)
  | wr (a : Word) (v : Byte)
deriving DecidableEq, Repr

/-- `driveSelect` (R34, R416). -/
inductive DriveSelect where
  | drive1
  | drive2
deriving DecidableEq, Repr

/-- The interleave table of an image (R35, R472). -/
inductive Interleave where
  | dos33
  | prodos
deriving DecidableEq, Repr

/-- A DiskImage (R35): the nibble buffers of tracks 0 to 34, the write-protect flag and the order. -/
structure DiskImage where
  tracks : List (List Byte)
  writeProtect : Bool
  order : Interleave
deriving DecidableEq, Repr

/-- The Disk II's drive state (R34). -/
structure Drive where
  phases : Vector Bool 4
  motorOn : Bool
  driveSelect : DriveSelect
  q6 : Bool
  q7 : Bool
  headPos : Nat
  mediaPosition : Nat
  writeLatch : Byte
  disk : Option DiskImage
deriving DecidableEq, Repr

/-- The state behind the hooks (R37): the Disk II, the other peripherals' states by device number
(a device not listed has state 0), and the recorder's notes, oldest first. -/
structure Devices where
  drive : Drive
  extra : List (Nat × Nat)
  busLog : List Access
deriving DecidableEq, Repr

/-- The machine's state. `mem` lists the bytes that differ from the sentinel 0xCC and `pageModes` the
pages that are not ReadWrite, both by rising address. `breakpoints` is a set, kept rising. `cfg` holds
the parameters the machine was built with. `draws` is the model's own: how many free values have been
taken. -/
structure State where
  cfg : Config
  a : Byte
  x : Byte
  y : Byte
  sp : Byte
  pc : Word
  p : Flags
  totalCycles : Nat
  breakpoints : List Word
  cancelRequested : Bool
  irqLine : Bool
  mem : List Host.Cell
  pageModes : List (Nat × PageMode)
  readHooks : List Hook
  writeHooks : List Hook
  dev : Devices
  draws : Nat
deriving DecidableEq, Repr

/-- Why a step stops. Every constructor is SAFE: the spec itself ends the step there, and the model
claims nothing beyond the stop. -/
inductive Fault where
  /-- Raised by `Ops.fetch` when the opcode byte at `pc` selects an absent slot (R500). `left` is the
  state the machine is left in: unchanged but for the side effects of the opcode fetch. SAFE. -/
  | invalidOpcode (pc : Word) (left : State)
  /-- Raised by `Ops.readByte` when a consuming read hook gives no value (R63). SAFE. -/
  | readHookNoValue (a : Word)
  /-- Raised by the codec's entry points on a buffer of the wrong size (R459); no step raises it. SAFE. -/
  | codecLength
deriving DecidableEq, Repr

/-- Why a step has no meaning. -/
inductive Refusal where
  /-- Raised by `exec` for an instruction that has no meaning in the model yet. SAFE. No arm raises it
  any more. -/
  | notModelled (mnemonic : String)
deriving DecidableEq, Repr

/-- The drive at construction (R36, D26). -/
def Drive.initial : Drive where
  phases := Vector.replicate 4 false
  motorOn := false
  driveSelect := .drive1
  q6 := false
  q7 := false
  headPos := 0
  mediaPosition := 0
  writeLatch := 0x00
  disk := none

/-- The machine in the default configuration after construction and `reset()` (R36, R550, R552), with
nothing loaded. SP, I and PC are reset's: PC is the word at 0xFFFC, whose two bytes are the sentinel.
A, X, Y and the other flags are draws in the spec; the zeros here are the model's
(DESIGN CHOICE, unsafe, assumption log 1). -/
def State.reset : State where
  cfg := Config.default
  a := 0x00
  x := 0x00
  y := 0x00
  sp := 0xFF
  pc := 0xCCCC
  p := { n := false, v := false, b := false, d := false, i := true, z := false, c := false }
  totalCycles := 0
  breakpoints := []
  cancelRequested := false
  irqLine := false
  mem := []
  pageModes := []
  readHooks := [
    { lo := 0xC0E0, hi := 0xC0EF, bypass := false, callback := .diskStrobe },
    { lo := 0xC600, hi := 0xC6FF, bypass := false, callback := .diskRom }]
  writeHooks := [
    { lo := 0xC0E0, hi := 0xC0EF, bypass := false, callback := .diskStrobe },
    { lo := 0xC600, hi := 0xC6FF, bypass := false, callback := .diskRomWrite }]
  dev := { drive := Drive.initial, extra := [], busLog := [] }
  draws := 0

end Sys2Proof.Machine
end

