-- ==== Sys2Proof/Machine/Disk.lean ====
section
/-! DEFINITION. The Disk II controller (spec/50_disk_controller.md): its windows and hooks, the soft
switches, the phase stepper and the Q6/Q7 data strobes. Everything here acts on `Drive` alone. -/

namespace Sys2Proof.Machine

/-- `IO_LO` (R400). -/
def diskIoLo (cfg : Config) : Word := BitVec.ofNat 16 (0xC080 + 0x10 * cfg.diskSlot)

/-- `IO_HI` (R400). -/
def diskIoHi (cfg : Config) : Word := diskIoLo cfg + 0x0F

/-- `ROM_LO` (R400). -/
def diskRomLo (cfg : Config) : Word := BitVec.ofNat 16 (0xC000 + 0x100 * cfg.diskSlot)

/-- The last address of the card ROM window (R400). -/
def diskRomHi (cfg : Config) : Word := diskRomLo cfg + 0xFF

/-- The controller's read hooks, in installation order (R401, hooks 1 and 2). -/
def diskReadHooks (cfg : Config) : List Hook := [
  { lo := diskIoLo cfg, hi := diskIoHi cfg, bypass := false, callback := .diskStrobe },
  { lo := diskRomLo cfg, hi := diskRomHi cfg, bypass := false, callback := .diskRom }]

/-- The controller's write hooks, in installation order (R401, hooks 3 and 4). -/
def diskWriteHooks (cfg : Config) : List Hook := [
  { lo := diskIoLo cfg, hi := diskIoHi cfg, bypass := false, callback := .diskStrobe },
  { lo := diskRomLo cfg, hi := diskRomHi cfg, bypass := false, callback := .diskRomWrite }]

/-- `DISK_ROM[k]` (R402). A byte the parameter does not supply is a free value (assumption log 4). -/
def diskRomAt (cfg : Config) (k : Nat) : Byte :=
  match cfg.diskRom[k]? with
  | some v => v
  | none => Config.diskRomByte k

/-- `HMAX` (R411). -/
def headMax (cfg : Config) : Nat :=
  match cfg.stepper with
  | .halfTrack => 68
  | .wholeTrackPerPhase => 34

/-- `currentTrack` (R410). -/
def currentTrack (cfg : Config) (d : Drive) : Nat :=
  match cfg.stepper with
  | .halfTrack => min 34 ((d.headPos + 1) / 2)
  | .wholeTrackPerPhase => d.headPos

/-- The head position after phase `q` comes on (R411): a step inward if `q` is the next phase from the
one the head rests under, outward if the one before, else no step; clamped (R412). -/
def steppedHead (cfg : Config) (q headPos : Nat) : Nat :=
  if q = (headPos + 1) % 4 then min (headPos + 1) (headMax cfg)
  else if q = (headPos + 3) % 4 then headPos - 1
  else headPos

/-- `setPhase(q, on)` (R411): only an off-to-on transition can move the head. -/
def setPhase (cfg : Config) (q : Fin 4) (on : Bool) (d : Drive) : Drive :=
  { d with
    headPos := if on && !d.phases[q] then steppedHead cfg q.val d.headPos else d.headPos
    phases := d.phases.set q on }

/-- `applySwitch(n)` (R404), `n` the low 4 bits of the strobe address: below 8 a phase, else a latch. -/
def applySwitch (cfg : Config) (n : Nat) (d : Drive) : Drive :=
  match n with
  | 8 => { d with motorOn := false }
  | 9 => { d with motorOn := true }
  | 10 => { d with driveSelect := .drive1 }
  | 11 => { d with driveSelect := .drive2 }
  | 12 => { d with q6 := false }
  | 13 => { d with q6 := true }
  | 14 => { d with q7 := false }
  | 15 => { d with q7 := true }
  | k => setPhase cfg (Fin.ofNat 4 (k / 2)) (k % 2 == 1) d

/-- The sub-command of a strobe address (R400). -/
def strobeIndex (a : Word) : Nat := (a &&& 0x000F).toNat

/-- The track buffer under the head (R403). -/
def trackAt (img : DiskImage) (t : Nat) : List Byte := (img.tracks[t]?).getD []

/-- The nibble under the head. Outside every buffer, where no run comes, it is a free value
(assumption log 8). -/
def nibbleAt (img : DiskImage) (t pos : Nat) : Byte :=
  match (trackAt img t)[pos]? with
  | some v => v
  | none => Config.offTrackNibble t pos

/-- The image with the nibble at a position replaced, no buffer resized (R423). -/
def writeNibble (img : DiskImage) (t pos : Nat) (v : Byte) : DiskImage :=
  { img with tracks := img.tracks.set t ((trackAt img t).set pos v) }

/-- The advance of the media position after a Read or Write strobe (R415): by one, circularly, while
the motor is on. -/
def advanceMedia (len : Nat) (d : Drive) : Drive :=
  if d.motorOn then { d with mediaPosition := (d.mediaPosition + 1) % len } else d

/-- What a strobe does to a drive that holds `img`, once the switch is applied (R403, R418 to R424): the
byte a read gets, and the drive. -/
def strobeData (cfg : Config) (img : DiskImage) (v : Option Byte) (d : Drive) : Byte × Drive :=
  let t := currentTrack cfg d
  let len := (trackAt img t).length
  match d.q6, d.q7 with
  | false, false =>
    match v with
    | none => (nibbleAt img t d.mediaPosition, advanceMedia len d)
    | some _ => (0x00, d)
  | true, false =>
    match v with
    | none => (if img.writeProtect then 0x80 else 0x00, d)
    | some _ => (0x00, d)
  | false, true =>
    let img' := if img.writeProtect then img else writeNibble img t d.mediaPosition d.writeLatch
    (0x00, advanceMedia len { d with disk := some img' })
  | true, true =>
    match v with
    | none => (0x00, d)
    | some w => (0x00, { d with writeLatch := w })

/-- `diskAccess(a, v)` (R403): the switch first, then the data strobe of the mode then in force; with no
disk the switch alone (R425). -/
def diskAccess (cfg : Config) (a : Word) (v : Option Byte) (d : Drive) : Byte × Drive :=
  let d1 := applySwitch cfg (strobeIndex a) d
  match d1.disk with
  | none => (0x00, d1)
  | some img => strobeData cfg img v d1

end Sys2Proof.Machine
end

