-- ==== Sys2Proof/Machine/Flags.lean ====
section
/-! DEFINITION. The status byte and every flag computation of the spec: the Z/N rule, addition and
subtraction, comparison, BIT, shifts and rotates (spec/10_state.md R24, R25; spec/35_execution.md R143;
spec/42_arith_logic.md; spec/43_inc_dec_shift.md). All are pure functions of bytes and flags. -/

namespace Sys2Proof.Machine

/-- `serialize(forceB)` (R24): N V 1 B D I Z C, bit 7 first. -/
def Flags.serialize (p : Flags) (forceB : Bool) : Byte :=
  BitVec.ofBool p.n ++ BitVec.ofBool p.v ++ 1#1 ++ BitVec.ofBool (p.b || forceB) ++
  BitVec.ofBool p.d ++ BitVec.ofBool p.i ++ BitVec.ofBool p.z ++ BitVec.ofBool p.c

/-- The flags loaded from a status byte (R25): B becomes false, bits 5 and 4 are ignored. -/
def Flags.ofByte (v : Byte) : Flags where
  n := v.getLsbD 7
  v := v.getLsbD 6
  b := false
  d := v.getLsbD 3
  i := v.getLsbD 2
  z := v.getLsbD 1
  c := v.getLsbD 0

/-- `setNZ(v)` (R143). -/
def Flags.setNZ (v : Byte) (p : Flags) : Flags := { p with z := v == 0, n := v.getLsbD 7 }

/-- `setNZ` together with a carry. -/
def Flags.setNZC (v : Byte) (c : Bool) (p : Flags) : Flags := { Flags.setNZ v p with c := c }

/-- The result of an addition or subtraction: the byte and the four flags it computes. -/
structure AluResult where
  r : Byte
  n : Bool
  v : Bool
  z : Bool
  c : Bool
deriving DecidableEq, Repr

/-- The signed-overflow test of R240: `((r ^ A) & (r ^ operand) & 0x80) != 0`. -/
def signedOverflow (r a m : Byte) : Bool := ((r ^^^ a) &&& (r ^^^ m) &&& 0x80) != 0

/-- The exact sum `a + m + c`, 0 to 511. -/
def exactSum (a m : Byte) (c : Bool) : Nat := a.toNat + m.toNat + c.toNat

/-- The sum modulo 256. -/
def binarySum (a m : Byte) (c : Bool) : Byte := BitVec.ofNat 8 (exactSum a m c)

/-- The signed overflow of the binary sum. -/
def sumOverflow (a m : Byte) (c : Bool) : Bool := signedOverflow (binarySum a m c) a m

/-- The low digit of a decimal addition after its correction (R241). -/
def decimalAddLow (a m : Byte) (c : Bool) : Nat :=
  let lo := a.toNat % 16 + m.toNat % 16 + c.toNat
  if lo > 9 then lo + 6 else lo

/-- The high digit of a decimal addition after its correction (R241). -/
def decimalAddHigh (a m : Byte) (c : Bool) : Nat :=
  let hi := a.toNat / 16 + m.toNat / 16 + (if decimalAddLow a m c > 15 then 1 else 0)
  if hi > 9 then hi + 6 else hi

/-- The result byte of a decimal ADC (R241). -/
def decimalAdd (a m : Byte) (c : Bool) : Byte :=
  BitVec.ofNat 8 (decimalAddHigh a m c * 16 + decimalAddLow a m c % 16)

/-- The carry of a decimal ADC (R241). -/
def decimalAddCarry (a m : Byte) (c : Bool) : Bool := decide (decimalAddHigh a m c > 15)

/-- Whether the low digit of a decimal subtraction borrows (R242). -/
def decimalSubBorrows (a m : Byte) (c : Bool) : Bool :=
  decide ((a.toNat % 16 : Int) - (m.toNat % 16 : Int) - (1 - (c.toNat : Int)) < 0)

/-- The low digit of a decimal subtraction after its correction, a signed integer (R242). -/
def decimalSubLow (a m : Byte) (c : Bool) : Int :=
  let lo := (a.toNat % 16 : Int) - (m.toNat % 16 : Int) - (1 - (c.toNat : Int))
  if decimalSubBorrows a m c then lo - 6 else lo

/-- The high digit of a decimal subtraction after its correction, a signed integer (R242). -/
def decimalSubHigh (a m : Byte) (c : Bool) : Int :=
  let hi := (a.toNat / 16 : Int) - (m.toNat / 16 : Int) - (if decimalSubBorrows a m c then 1 else 0)
  if hi < 0 then hi - 6 else hi

/-- The result byte of a decimal SBC (R242): the two's-complement bits of `(hi << 4) | (lo & 15)`. -/
def decimalSub (a m : Byte) (c : Bool) : Byte :=
  BitVec.ofInt 8 (decimalSubHigh a m c * 16 + decimalSubLow a m c % 16)

/-- `C <- sum > 255` (R241, R242). -/
def sumCarry (a m : Byte) (c : Bool) : Bool := decide (exactSum a m c > 255)

/-- Result, and N, V, Z, C, of ADC by the formulas of R241. -/
def adcResult (decimal : Bool) (a m : Byte) (c : Bool) : AluResult :=
  let r := if decimal then decimalAdd a m c else binarySum a m c
  let carry := if decimal then decimalAddCarry a m c else sumCarry a m c
  { r := r, n := r.getLsbD 7, v := sumOverflow a m c, z := r == 0, c := carry }

/-- Result, and N, V, Z, C, of SBC by the formulas of R242: addition of the complement, and for the
result alone the decimal correction. -/
def sbcResult (decimal : Bool) (a m : Byte) (c : Bool) : AluResult :=
  let r := if decimal then decimalSub a m c else binarySum a (~~~m) c
  { r := r, n := r.getLsbD 7, v := sumOverflow a (~~~m) c, z := r == 0, c := sumCarry a (~~~m) c }

/-- The flags of CMP, CPX and CPY of register value `r` with `m` (R247). -/
def Flags.compare (r m : Byte) (p : Flags) : Flags :=
  Flags.setNZC (r - m) (decide (m.toNat ≤ r.toNat)) p

/-- The flags of BIT (R246): N and V from M, Z from A & M. -/
def Flags.bitTest (a m : Byte) (p : Flags) : Flags :=
  { p with z := (a &&& m) == 0, n := m.getLsbD 7, v := m.getLsbD 6 }

/-- A read-modify-write operation: the new byte and the flags. -/
abbrev RmwFn := Byte → Flags → Byte × Flags

/-- INC (R270). -/
def incByte : RmwFn := fun m p => (m + 1, Flags.setNZ (m + 1) p)

/-- DEC (R271). -/
def decByte : RmwFn := fun m p => (m - 1, Flags.setNZ (m - 1) p)

/-- ASL (R276). -/
def aslByte : RmwFn := fun m p => (m <<< 1, Flags.setNZC (m <<< 1) (m.getLsbD 7) p)

/-- LSR (R277). -/
def lsrByte : RmwFn := fun m p => (m >>> 1, Flags.setNZC (m >>> 1) (m.getLsbD 0) p)

/-- ROL (R278): the old carry enters bit 0. -/
def rolByte : RmwFn := fun m p =>
  let r := (m <<< 1) ||| (BitVec.ofBool p.c).setWidth 8
  (r, Flags.setNZC r (m.getLsbD 7) p)

/-- ROR (R279): the old carry enters bit 7. -/
def rorByte : RmwFn := fun m p =>
  let r := ((BitVec.ofBool p.c).setWidth 8 <<< 7) ||| (m >>> 1)
  (r, Flags.setNZC r (m.getLsbD 0) p)

end Sys2Proof.Machine
end

