-- ==== Sys2Proof/Machine/Ops.lean ====
section
/-! DEFINITION. The shared operations of the machine: sparse memory, register updates, the hook callbacks
and the bus (spec/20_memory.md), the stack (spec/35_execution.md R140 to R142), fetching an instruction
(R121), taking a trap and returning from one (spec/44_control_transfer.md R312, R313;
spec/60_exceptions.md R506), and completing an instruction (R122, R150). -/

namespace Sys2Proof.Machine

/-! ### Sparse lists

A list of keys and values by rising key, with no entry equal to the default `d`: what an unlisted key
holds. -/

/-- The value at key `a`. -/
def Sparse.get {α : Type} (d : α) : List (Nat × α) → Nat → α
  | [], _ => d
  | (k, v) :: m, a => if a = k then v else Sparse.get d m a

/-- The list with key `a` holding `v`; writing the default removes the entry. -/
def Sparse.set {α : Type} [DecidableEq α] (d : α) : List (Nat × α) → Nat → α → List (Nat × α)
  | [], a, v => if v = d then [] else [(a, v)]
  | (k, w) :: m, a, v =>
    if a < k then (if v = d then (k, w) :: m else (a, v) :: (k, w) :: m)
    else if a = k then (if v = d then m else (a, v) :: m)
    else (k, w) :: Sparse.set d m a v

/-- The canonical form: every key at least `lo`, keys strictly rising, no default listed. -/
def Sparse.wfFrom {α : Type} [DecidableEq α] (d : α) : Nat → List (Nat × α) → Bool
  | _, [] => true
  | lo, (k, v) :: m => decide (lo ≤ k) && decide (v ≠ d) && Sparse.wfFrom d (k + 1) m

/-- Every key is below `bound`. -/
def Sparse.below {α : Type} (bound : Nat) (m : List (Nat × α)) : Bool := m.all (fun e => decide (e.1 < bound))

/-! ### Memory and page modes -/

/-- `SENTINEL`: what a byte nothing has written reads as (R5, R30, R550). -/
def sentinel : Byte := 0xCC

/-- `mem[a]`: the backing array. -/
def Mem.read (m : List Host.Cell) (a : Word) : Byte := Sparse.get sentinel m a.toNat

/-- `mem[a] <- v`. -/
def Mem.write (m : List Host.Cell) (a : Word) (v : Byte) : List Host.Cell :=
  Sparse.set sentinel m a.toNat v

/-- Memory is in its canonical form, within 65,536 addresses. -/
def Mem.wf (m : List Host.Cell) : Bool := Sparse.wfFrom sentinel 0 m && Sparse.below 65536 m

/-- `pageMode[a[15:8]]` (R31). -/
def State.pageMode (s : State) (a : Word) : PageMode :=
  Sparse.get .readWrite s.pageModes (hiByte a).toNat

/-! ### Register updates -/

/-- `A <- v`. -/
def State.setA (s : State) (v : Byte) : State := { s with a := v }

/-- `X <- v`. -/
def State.setX (s : State) (v : Byte) : State := { s with x := v }

/-- `Y <- v`. -/
def State.setY (s : State) (v : Byte) : State := { s with y := v }

/-- `SP <- v`. -/
def State.setSp (s : State) (v : Byte) : State := { s with sp := v }

/-- `PC <- v`. -/
def State.setPc (s : State) (v : Word) : State := { s with pc := v }

/-- The flags replaced. -/
def State.setP (s : State) (p : Flags) : State := { s with p := p }

/-- Memory replaced. -/
def State.setMem (s : State) (m : List Host.Cell) : State := { s with mem := m }

/-- The devices' state replaced. -/
def State.setDev (s : State) (d : Devices) : State := { s with dev := d }

/-- `totalCycles` advanced by a cost (R27). -/
def State.charge (s : State) (cost : Nat) : State := { s with totalCycles := s.totalCycles + cost }

/-- `k` free values taken. -/
def State.advanceDraws (s : State) (k : Nat) : State := { s with draws := s.draws + k }

/-- `A <- v; setNZ(A)`. -/
def loadA (v : Byte) (s : State) : State := (s.setA v).setP (s.p.setNZ v)

/-- `X <- v; setNZ(X)`. -/
def loadX (v : Byte) (s : State) : State := (s.setX v).setP (s.p.setNZ v)

/-- `Y <- v; setNZ(Y)`. -/
def loadY (v : Byte) (s : State) : State := (s.setY v).setP (s.p.setNZ v)

/-! ### Hooks and the bus -/

/-- A hook matches `a` when `lo <= a <= hi`; with `lo > hi` it matches nothing (R32). -/
def Hook.covers (h : Hook) (a : Word) : Bool := decide (h.lo.toNat ≤ a.toNat) && decide (a.toNat ≤ h.hi.toNat)

/-- Run a callback on an access: its result and the devices' new state (R32, R65, R401). `v` is `none`
for a read and the written value for a write. -/
def runCallback (cfg : Config) (cb : Callback) (a : Word) (v : Option Byte) (d : Devices) :
    Option Byte × Devices :=
  match cb with
  | .diskStrobe =>
    let (r, drive) := diskAccess cfg a v d.drive
    (if v.isNone then some r else none, { d with drive := drive })
  | .diskRom => (some (diskRomAt cfg (a - diskRomLo cfg).toNat), d)
  | .diskRomWrite => (none, d)
  | .const r => (r, d)
  | .recorder =>
    let access := match v with
      | none => Access.rd a
      | some w => Access.wr a w
    (none, { d with busLog := d.busLog ++ [access] })
  | .extra dev fn =>
    let (r, st) := Config.extraCallback dev fn (Sparse.get 0 d.extra dev) a v
    (r, { d with extra := Sparse.set 0 d.extra dev st })

/-- The scan of the read hooks (R62): `some v` from the first consuming hook, `none` if the access goes
on to memory. -/
def scanRead (cfg : Config) (a : Word) : List Hook → Devices → Except Fault (Option Byte × Devices)
  | [], d => .ok (none, d)
  | h :: hs, d =>
    if h.covers a then
      let (r, d1) := runCallback cfg h.callback a none d
      if h.bypass then scanRead cfg a hs d1
      else match r with
        | some v => .ok (some v, d1)
        | none => .error (.readHookNoValue a)
    else scanRead cfg a hs d

/-- The scan of the write hooks (R64): whether a hook consumed the write. -/
def scanWrite (cfg : Config) (a : Word) (v : Byte) : List Hook → Devices → Bool × Devices
  | [], d => (false, d)
  | h :: hs, d =>
    if h.covers a then
      let d1 := (runCallback cfg h.callback a (some v) d).2
      if h.bypass then scanWrite cfg a v hs d1 else (true, d1)
    else scanWrite cfg a v hs d

/-- A read past the hooks (R61, R66): an Unmapped page reads 0x00. -/
def rawRead (s : State) (a : Word) : Byte :=
  match s.pageMode a with
  | .unmapped => 0x00
  | .readWrite | .readOnly => Mem.read s.mem a

/-- A write past the hooks (R61, R66): only a ReadWrite page stores it. -/
def rawWrite (a : Word) (v : Byte) (s : State) : State :=
  match s.pageMode a with
  | .readWrite => s.setMem (Mem.write s.mem a v)
  | .readOnly | .unmapped => s

/-- `readByte(a)` (R62). -/
def readByte (a : Word) (s : State) : Except Fault (Byte × State) := do
  let (r, d) ← scanRead s.cfg a s.readHooks s.dev
  match r with
  | some v => .ok (v, s.setDev d)
  | none => .ok (rawRead s a, s.setDev d)

/-- `writeByte(a, v)` (R64). It never faults. -/
def writeByte (a : Word) (v : Byte) (s : State) : State :=
  let (consumed, d) := scanWrite s.cfg a v s.writeHooks s.dev
  if consumed then s.setDev d else rawWrite a v (s.setDev d)

/-- The low byte at `lo`, then the high byte at `hi`, as a word. -/
def readPair (lo hi : Word) (s : State) : Except Fault (Word × State) := do
  let (l, s1) ← readByte lo s
  let (h, s2) ← readByte hi s1
  .ok (joinBytes h l, s2)

/-- `Read16(a)` (R70). -/
def read16 (a : Word) (s : State) : Except Fault (Word × State) := readPair a (a + 1) s

/-! ### The stack -/

/-- `0x0100 + SP` (R21). -/
def stackAddr (sp : Byte) : Word := 0x0100 + zext16 sp

/-- `Push(v)` (R140): the write, then the decrement. -/
def push (v : Byte) (s : State) : State := (writeByte (stackAddr s.sp) v s).setSp (s.sp - 1)

/-- `Pull()` (R141): the increment, then the read. -/
def pull (s : State) : Except Fault (Byte × State) :=
  readByte (stackAddr (s.sp + 1)) (s.setSp (s.sp + 1))

/-- A 16-bit push (R142): high byte first. -/
def push16 (w : Word) (s : State) : State := push (loByte w) (push (hiByte w) s)

/-- A 16-bit pull (R142): low byte first. -/
def pull16 (s : State) : Except Fault (Word × State) := do
  let (l, s1) ← pull s
  let (h, s2) ← pull s1
  .ok (joinBytes h l, s2)

/-! ### Completing an instruction -/

/-- The end of a successful step: the next PC and the cost (R120, R122, R150). -/
def complete (nextPc : Word) (cost : Nat) (s : State) : State := (s.setPc nextPc).charge cost

/-- A computed state, or the fault on the way to it, as the outcome of a step. -/
def outcome : Except Fault State → Host.Outcome State Fault Refusal
  | .ok s => .next s
  | .error f => .fault f

/-! ### Traps -/

/-- The IRQ/BRK vector (R5, R74). -/
def brkVector : Word := 0xFFFE

/-- The reset vector (R5, R74). -/
def resetVector : Word := 0xFFFC

/-- Take a trap (R313, R506): push the return address, high byte first, and the status byte; set I, and
B for a BRK; then read the vector. It gives the handler's address. -/
def enterTrap (ret : Word) (status : Byte) (isBrk : Bool) (s : State) : Except Fault (Word × State) :=
  let s1 := push status (push16 ret s)
  read16 brkVector (s1.setP { s1.p with i := true, b := s1.p.b || isBrk })

/-- Return from a trap (R312): pull the status and load P from it, then pull the return address. -/
def leaveTrap (s : State) : Except Fault (Word × State) := do
  let (st, s1) ← pull s
  pull16 (s1.setP (Flags.ofByte st))

/-- A pending, unmasked IRQ on the optional input (R505, R506). -/
def irqPending (s : State) : Bool := s.cfg.hasIrqInput && s.irqLine && !s.p.i

/-- The IRQ entry (R506): bit 4 of the pushed status is 0, the return address is the PC itself, and the
step costs 7 cycles. -/
def takeIrq (s : State) : Host.Outcome State Fault Refusal := outcome do
  let (target, s1) ← enterTrap s.pc (s.p.serialize true &&& 0xEF) false s
  .ok (complete target 7 s1)

/-! ### Fetch -/

/-- The operand bytes of a form, each fetched when the instruction executes, in order (R121). -/
def fetchOperands (pc0 : Word) : Form → State → Except Fault (Instr × State)
  | .f1 i, s => .ok (i, s)
  | .f2 mk, s => do
    let (b1, s1) ← readByte (pc0 + 1) s
    .ok (mk b1, s1)
  | .f3 mk, s => do
    let (b1, s1) ← readByte (pc0 + 1) s
    let (b2, s2) ← readByte (pc0 + 2) s1
    .ok (mk (joinBytes b2 b1), s2)

/-- Fetch the instruction at PC (R120, R121): the opcode byte, then the operand bytes its length covers.
An absent opcode fetches its opcode byte only and leaves everything else unchanged (R500). -/
def fetch (s : State) : Except Fault (Instr × State) := do
  let (op, s1) ← readByte s.pc s
  match lookupOpcode op with
  | none => .error (.invalidOpcode s.pc s1)
  | some r => fetchOperands s.pc r.form s1

/-! ### Placing bytes where the next step fetches -/

/-- Bytes written to the backing array from `a` up, as `loadBinary` writes them: no hooks, no page
modes (R68). Addresses wrap. -/
def storeBytes (m : List Host.Cell) (a : Word) : List Byte → List Host.Cell
  | [] => m
  | v :: vs => storeBytes (Mem.write m a v) (a + 1) vs

/-- Make address `a` reachable by an instruction fetch from memory: no read hook covers it, and its page
is not Unmapped. In a state where a fetch at `a` reaches memory already, nothing changes. -/
def exposeFetch (a : Word) (s : State) : State :=
  { s with
    readHooks := s.readHooks.filter (fun h => !h.covers a)
    pageModes := match s.pageMode a with
      | .unmapped => Sparse.set .readWrite s.pageModes (hiByte a).toNat .readWrite
      | .readWrite | .readOnly => s.pageModes }

/-- The length of the instruction that begins with an opcode byte; 1 for an absent opcode, which
fetches that byte only (R121). -/
def fetchLength (op : Byte) : Nat :=
  match lookupOpcode op with
  | some r => r.desc.length
  | none => 1

/-- The bytes of an instruction placed at `a` so that the very next step fetches and runs it: stored in
memory, the instruction's own addresses exposed, and a pending IRQ lowered, since it would be taken
first (R506). -/
def placeBytes (a : Word) (bs : List Byte) (s : State) : State :=
  let s1 := (List.range (fetchLength (bs.headD 0))).foldl
    (fun t k => exposeFetch (a + BitVec.ofNat 16 k) t) s
  { s1 with
    mem := storeBytes s1.mem a bs
    irqLine := if irqPending s then false else s.irqLine }

end Sys2Proof.Machine
end

