-- ==== Sys2Proof/Machine/Operands.lean ====
section
/-! DEFINITION. Operand forms and access classes (spec/35_execution.md R124 to R134, R150 to R152): every
addressing mode, and one shared operation for each class of instruction. -/

namespace Sys2Proof.Machine

/-- A memory operand, with its operand byte or word (R126 to R131). -/
inductive MemMode where
  | zp (b : Byte)
  | zpx (b : Byte)
  | zpy (b : Byte)
  | abs (w : Word)
  | absx (w : Word)
  | absy (w : Word)
  | izx (b : Byte)
  | izy (b : Byte)
deriving DecidableEq, Repr

/-- The operand of a read-class instruction: R124's `Value` or `Addr`. -/
inductive ReadOperand where
  | imm (v : Byte)
  | mem (m : MemMode)
deriving DecidableEq, Repr

/-- The operand of a read-modify-write instruction: R124's `Acc` or `Addr`. -/
inductive RmwOperand where
  | acc
  | mem (m : MemMode)
deriving DecidableEq, Repr

/-- The length of an instruction with the operand (R100). -/
def MemMode.length : MemMode → Nat
  | .zp _ | .zpx _ | .zpy _ | .izx _ | .izy _ => 2
  | .abs _ | .absx _ | .absy _ => 3

/-- The length of an instruction with the operand (R100). -/
def ReadOperand.length : ReadOperand → Nat
  | .imm _ => 2
  | .mem m => m.length

/-- The length of an instruction with the operand (R100). -/
def RmwOperand.length : RmwOperand → Nat
  | .acc => 1
  | .mem m => m.length

/-- The page-crossing flag of an indexed address (R129, R131). -/
def pageCrossed (base ea : Word) : Bool := hiByte base != hiByte ea

/-- An indexed address and its crossing flag (R129). -/
def indexed (base : Word) (index : Byte) : Word × Bool :=
  (base + zext16 index, pageCrossed base (base + zext16 index))

/-- The pointer at zero-page address `b`; its second byte stays in the zero page (R130, R131). -/
def zpPointer (b : Byte) (s : State) : Except Fault (Word × State) := readPair (zext16 b) (zext16 (b + 1)) s

/-- The effective address and the crossing flag (R126 to R131). Only the pointer reads of the indirect
modes touch the bus. -/
def effAddr (m : MemMode) (s : State) : Except Fault ((Word × Bool) × State) :=
  match m with
  | .zp b => .ok ((zext16 b, false), s)
  | .zpx b => .ok ((zext16 (b + s.x), false), s)
  | .zpy b => .ok ((zext16 (b + s.y), false), s)
  | .abs w => .ok ((w, false), s)
  | .absx w => .ok (indexed w s.x, s)
  | .absy w => .ok (indexed w s.y, s)
  | .izx b => do
    let (p, s1) ← zpPointer (b + s.x) s
    .ok ((p, false), s1)
  | .izy b => do
    let (p, s1) ← zpPointer b s
    .ok (indexed p s.y, s1)

/-- The operand byte M of a read-class instruction and the crossing flag (R134: one read for a memory
mode, none for an immediate). -/
def readOperand (o : ReadOperand) (s : State) : Except Fault ((Byte × Bool) × State) :=
  match o with
  | .imm v => .ok ((v, false), s)
  | .mem m => do
    let (ea, s1) ← effAddr m s
    let (v, s2) ← readByte ea.1 s1
    .ok ((v, ea.2), s2)

/-- `pagePenalty` (R151). -/
def penaltyCycles (pen crossed : Bool) : Nat := if pen && crossed then 1 else 0

/-- A read-class instruction: read M, apply `f`, advance by the length, pay base and penalty. -/
def readClass (o : ReadOperand) (cycles : Nat) (pen : Bool) (f : Byte → State → State) (s : State) :
    Host.Outcome State Fault Refusal := outcome do
  let (m, s1) ← readOperand o s
  .ok (complete (s.pc + BitVec.ofNat 16 o.length) (cycles + penaltyCycles pen m.2) (f m.1 s1))

/-- A write-class instruction: store `v`; the target is not read and no penalty is paid (R134, R151). -/
def writeClass (m : MemMode) (cycles : Nat) (v : Byte) (s : State) :
    Host.Outcome State Fault Refusal := outcome do
  let (ea, s1) ← effAddr m s
  .ok (complete (s.pc + BitVec.ofNat 16 m.length) cycles (writeByte ea.1 v s1))

/-- A read-modify-write instruction: in accumulator mode on A, else one read and one write of the
effective address (R134). -/
def rmwClass (o : RmwOperand) (cycles : Nat) (f : RmwFn) (s : State) :
    Host.Outcome State Fault Refusal :=
  match o with
  | .acc =>
    let (r, p) := f s.a s.p
    .next (complete (s.pc + 1) cycles ((s.setA r).setP p))
  | .mem m => outcome do
    let (ea, s1) ← effAddr m s
    let (v, s2) ← readByte ea.1 s1
    let (r, p) := f v s.p
    .ok (complete (s.pc + BitVec.ofNat 16 m.length) cycles ((writeByte ea.1 r s2).setP p))

/-- A one-byte instruction whose effect `f` cannot fault. -/
def implied (cycles : Nat) (f : State → State) (s : State) : Host.Outcome State Fault Refusal :=
  .next (complete (s.pc + 1) cycles (f s))

/-- The target of a branch (R133, R300). -/
def branchTarget (pc0 : Word) (d : Byte) : Word := pc0 + 2 + sext16 d

/-- `branchPenalty` (R152). -/
def branchPenalty (pc0 : Word) (d : Byte) (taken : Bool) : Nat :=
  if taken then (if pageCrossed (pc0 + 2) (branchTarget pc0 d) then 2 else 1) else 0

/-- A conditional branch (R300): 2 cycles and the penalty. -/
def branch (taken : Bool) (d : Byte) (s : State) : Host.Outcome State Fault Refusal :=
  .next (complete (if taken then branchTarget s.pc d else s.pc + 2) (2 + branchPenalty s.pc d taken) s)

/-- The address of the pointer's high byte in `JMP ($nnnn)` (R132): with `JMP_IND_WRAP` it stays in the
pointer's page. -/
def indirectHigh (cfg : Config) (ptr : Word) : Word :=
  if cfg.jmpIndWrap then joinBytes (hiByte ptr) (loByte ptr + 1) else ptr + 1

/-- The target of `JMP ($nnnn)` (R132). -/
def indirectTarget (ptr : Word) (s : State) : Except Fault (Word × State) :=
  readPair ptr (indirectHigh s.cfg ptr) s

end Sys2Proof.Machine
end

