-- ==== Sys2Proof/Machine/Arith.lean ====
section
/-! DEFINITION. Addition and subtraction (spec/42_arith_logic.md R240 to R242, R250): one definition per opcode, over the shared operations. -/

namespace Sys2Proof.Machine

/-- Write the result and the flags of an addition or subtraction. In decimal mode with
`DECIMAL_NVZ = Draw`, N, V and Z are three free values instead (R250; assumption log 3). -/
def writeAlu (res : AluResult) (s : State) : State :=
  if s.p.d && decide (s.cfg.decimalNvz = .draw) then
    ((s.setA res.r).setP { s.p with
      n := Config.freeBit s.draws
      v := Config.freeBit (s.draws + 1)
      z := Config.freeBit (s.draws + 2)
      c := res.c }).advanceDraws 3
  else (s.setA res.r).setP { s.p with n := res.n, v := res.v, z := res.z, c := res.c }

/-- ADC of M (R241). -/
def adc (m : Byte) (s : State) : State := writeAlu (adcResult s.p.d s.a m s.p.c) s

/-- SBC of M (R242). -/
def sbc (m : Byte) (s : State) : State := writeAlu (sbcResult s.p.d s.a m s.p.c) s

/-- `61` ADC ($nn,X) (R241): 6 cycles. -/
def execAdcIzx (zp : Byte) (s : State) : Host.Outcome State Fault Refusal :=
  readClass (.mem (.izx zp)) 6 false adc s

/-- `65` ADC $nn (R241): 3 cycles. -/
def execAdcZp (zp : Byte) (s : State) : Host.Outcome State Fault Refusal :=
  readClass (.mem (.zp zp)) 3 false adc s

/-- `69` ADC #$nn (R241): 2 cycles. -/
def execAdcImm (v : Byte) (s : State) : Host.Outcome State Fault Refusal :=
  readClass (.imm v) 2 false adc s

/-- `6D` ADC $nnnn (R241): 4 cycles. -/
def execAdcAbs (addr : Word) (s : State) : Host.Outcome State Fault Refusal :=
  readClass (.mem (.abs addr)) 4 false adc s

/-- `71` ADC ($nn),Y (R241): 5 cycles +1 on page cross. -/
def execAdcIzy (zp : Byte) (s : State) : Host.Outcome State Fault Refusal :=
  readClass (.mem (.izy zp)) 5 true adc s

/-- `75` ADC $nn,X (R241): 4 cycles. -/
def execAdcZpx (zp : Byte) (s : State) : Host.Outcome State Fault Refusal :=
  readClass (.mem (.zpx zp)) 4 false adc s

/-- `79` ADC $nnnn,Y (R241): 4 cycles +1 on page cross. -/
def execAdcAbsy (addr : Word) (s : State) : Host.Outcome State Fault Refusal :=
  readClass (.mem (.absy addr)) 4 true adc s

/-- `7D` ADC $nnnn,X (R241): 4 cycles +1 on page cross. -/
def execAdcAbsx (addr : Word) (s : State) : Host.Outcome State Fault Refusal :=
  readClass (.mem (.absx addr)) 4 true adc s

/-- `E1` SBC ($nn,X) (R242): 6 cycles. -/
def execSbcIzx (zp : Byte) (s : State) : Host.Outcome State Fault Refusal :=
  readClass (.mem (.izx zp)) 6 false sbc s

/-- `E5` SBC $nn (R242): 3 cycles. -/
def execSbcZp (zp : Byte) (s : State) : Host.Outcome State Fault Refusal :=
  readClass (.mem (.zp zp)) 3 false sbc s

/-- `E9` SBC #$nn (R242): 2 cycles. -/
def execSbcImm (v : Byte) (s : State) : Host.Outcome State Fault Refusal :=
  readClass (.imm v) 2 false sbc s

/-- `ED` SBC $nnnn (R242): 4 cycles. -/
def execSbcAbs (addr : Word) (s : State) : Host.Outcome State Fault Refusal :=
  readClass (.mem (.abs addr)) 4 false sbc s

/-- `F1` SBC ($nn),Y (R242): 5 cycles +1 on page cross. -/
def execSbcIzy (zp : Byte) (s : State) : Host.Outcome State Fault Refusal :=
  readClass (.mem (.izy zp)) 5 true sbc s

/-- `F5` SBC $nn,X (R242): 4 cycles. -/
def execSbcZpx (zp : Byte) (s : State) : Host.Outcome State Fault Refusal :=
  readClass (.mem (.zpx zp)) 4 false sbc s

/-- `F9` SBC $nnnn,Y (R242): 4 cycles +1 on page cross. -/
def execSbcAbsy (addr : Word) (s : State) : Host.Outcome State Fault Refusal :=
  readClass (.mem (.absy addr)) 4 true sbc s

/-- `FD` SBC $nnnn,X (R242): 4 cycles +1 on page cross. -/
def execSbcAbsx (addr : Word) (s : State) : Host.Outcome State Fault Refusal :=
  readClass (.mem (.absx addr)) 4 true sbc s

end Sys2Proof.Machine
end

