-- ==== Sys2Proof/Machine/Compare.lean ====
section
/-! DEFINITION. Comparisons (spec/42_arith_logic.md R247 to R249): one definition per opcode, over the shared operations. -/

namespace Sys2Proof.Machine

/-- Compare A with M (R247): flags only. -/
def cmpA (m : Byte) (s : State) : State := s.setP (s.p.compare s.a m)

/-- Compare X with M (R248). -/
def cmpX (m : Byte) (s : State) : State := s.setP (s.p.compare s.x m)

/-- Compare Y with M (R249). -/
def cmpY (m : Byte) (s : State) : State := s.setP (s.p.compare s.y m)

/-- `C1` CMP ($nn,X) (R247): 6 cycles. -/
def execCmpIzx (zp : Byte) (s : State) : Host.Outcome State Fault Refusal :=
  readClass (.mem (.izx zp)) 6 false cmpA s

/-- `C5` CMP $nn (R247): 3 cycles. -/
def execCmpZp (zp : Byte) (s : State) : Host.Outcome State Fault Refusal :=
  readClass (.mem (.zp zp)) 3 false cmpA s

/-- `C9` CMP #$nn (R247): 2 cycles. -/
def execCmpImm (v : Byte) (s : State) : Host.Outcome State Fault Refusal :=
  readClass (.imm v) 2 false cmpA s

/-- `CD` CMP $nnnn (R247): 4 cycles. -/
def execCmpAbs (addr : Word) (s : State) : Host.Outcome State Fault Refusal :=
  readClass (.mem (.abs addr)) 4 false cmpA s

/-- `D1` CMP ($nn),Y (R247): 5 cycles +1 on page cross. -/
def execCmpIzy (zp : Byte) (s : State) : Host.Outcome State Fault Refusal :=
  readClass (.mem (.izy zp)) 5 true cmpA s

/-- `D5` CMP $nn,X (R247): 4 cycles. -/
def execCmpZpx (zp : Byte) (s : State) : Host.Outcome State Fault Refusal :=
  readClass (.mem (.zpx zp)) 4 false cmpA s

/-- `D9` CMP $nnnn,Y (R247): 4 cycles +1 on page cross. -/
def execCmpAbsy (addr : Word) (s : State) : Host.Outcome State Fault Refusal :=
  readClass (.mem (.absy addr)) 4 true cmpA s

/-- `DD` CMP $nnnn,X (R247): 4 cycles +1 on page cross. -/
def execCmpAbsx (addr : Word) (s : State) : Host.Outcome State Fault Refusal :=
  readClass (.mem (.absx addr)) 4 true cmpA s

/-- `E0` CPX #$nn (R248): 2 cycles. -/
def execCpxImm (v : Byte) (s : State) : Host.Outcome State Fault Refusal :=
  readClass (.imm v) 2 false cmpX s

/-- `E4` CPX $nn (R248): 3 cycles. -/
def execCpxZp (zp : Byte) (s : State) : Host.Outcome State Fault Refusal :=
  readClass (.mem (.zp zp)) 3 false cmpX s

/-- `EC` CPX $nnnn (R248): 4 cycles. -/
def execCpxAbs (addr : Word) (s : State) : Host.Outcome State Fault Refusal :=
  readClass (.mem (.abs addr)) 4 false cmpX s

/-- `C0` CPY #$nn (R249): 2 cycles. -/
def execCpyImm (v : Byte) (s : State) : Host.Outcome State Fault Refusal :=
  readClass (.imm v) 2 false cmpY s

/-- `C4` CPY $nn (R249): 3 cycles. -/
def execCpyZp (zp : Byte) (s : State) : Host.Outcome State Fault Refusal :=
  readClass (.mem (.zp zp)) 3 false cmpY s

/-- `CC` CPY $nnnn (R249): 4 cycles. -/
def execCpyAbs (addr : Word) (s : State) : Host.Outcome State Fault Refusal :=
  readClass (.mem (.abs addr)) 4 false cmpY s

end Sys2Proof.Machine
end

