-- ==== Sys2Proof/Machine/Control.lean ====
section
/-! DEFINITION. Branches, jumps, subroutines, BRK and RTI (spec/44_control_transfer.md R300 to R313): one definition per opcode, over the shared operations. -/

namespace Sys2Proof.Machine

/-- `90` BCC target (R301): 2 cycles +1 if taken, +1 more on page cross. -/
def execBcc (d : Byte) (s : State) : Host.Outcome State Fault Refusal :=
  branch (!s.p.c) d s

/-- `B0` BCS target (R302): 2 cycles +1 if taken, +1 more on page cross. -/
def execBcs (d : Byte) (s : State) : Host.Outcome State Fault Refusal :=
  branch s.p.c d s

/-- `F0` BEQ target (R303): 2 cycles +1 if taken, +1 more on page cross. -/
def execBeq (d : Byte) (s : State) : Host.Outcome State Fault Refusal :=
  branch s.p.z d s

/-- `D0` BNE target (R304): 2 cycles +1 if taken, +1 more on page cross. -/
def execBne (d : Byte) (s : State) : Host.Outcome State Fault Refusal :=
  branch (!s.p.z) d s

/-- `30` BMI target (R305): 2 cycles +1 if taken, +1 more on page cross. -/
def execBmi (d : Byte) (s : State) : Host.Outcome State Fault Refusal :=
  branch s.p.n d s

/-- `10` BPL target (R306): 2 cycles +1 if taken, +1 more on page cross. -/
def execBpl (d : Byte) (s : State) : Host.Outcome State Fault Refusal :=
  branch (!s.p.n) d s

/-- `50` BVC target (R307): 2 cycles +1 if taken, +1 more on page cross. -/
def execBvc (d : Byte) (s : State) : Host.Outcome State Fault Refusal :=
  branch (!s.p.v) d s

/-- `70` BVS target (R308): 2 cycles +1 if taken, +1 more on page cross. -/
def execBvs (d : Byte) (s : State) : Host.Outcome State Fault Refusal :=
  branch s.p.v d s

/-- `4C` JMP $nnnn (R309): 3 cycles. -/
def execJmpAbs (addr : Word) (s : State) : Host.Outcome State Fault Refusal :=
  .next (complete addr 3 s)

/-- `6C` JMP ($nnnn) (R309): 5 cycles. -/
def execJmpInd (ptr : Word) (s : State) : Host.Outcome State Fault Refusal := outcome do
  let (target, s1) ← indirectTarget ptr s
  .ok (complete target 5 s1)

/-- `20` JSR $nnnn (R310): 6 cycles. -/
def execJsr (addr : Word) (s : State) : Host.Outcome State Fault Refusal :=
  .next (complete addr 6 (push16 (s.pc + 2) s))

/-- `60` RTS (R311): 6 cycles. -/
def execRts (s : State) : Host.Outcome State Fault Refusal := outcome do
  let (w, s1) ← pull16 s
  .ok (complete (w + 1) 6 s1)

/-- `40` RTI (R312): 6 cycles. -/
def execRti (s : State) : Host.Outcome State Fault Refusal := outcome do
  let (w, s1) ← leaveTrap s
  .ok (complete w 6 s1)

/-- `00` BRK (R313): 7 cycles. -/
def execBrk (s : State) : Host.Outcome State Fault Refusal := outcome do
  let (target, s1) ← enterTrap (s.pc + 2) (s.p.serialize true) true s
  .ok (complete target 7 s1)

end Sys2Proof.Machine
end

