-- ==== Sys2Proof/Machine/FlagOps.lean ====
section
/-! DEFINITION. Flag instructions and NOP (spec/45_flag_misc.md R330 to R337): one definition per opcode, over the shared operations. -/

namespace Sys2Proof.Machine

/-- `18` CLC (R330): 2 cycles. -/
def execClc (s : State) : Host.Outcome State Fault Refusal :=
  implied 2 (fun s => s.setP { s.p with c := false }) s

/-- `38` SEC (R331): 2 cycles. -/
def execSec (s : State) : Host.Outcome State Fault Refusal :=
  implied 2 (fun s => s.setP { s.p with c := true }) s

/-- `58` CLI (R332): 2 cycles. -/
def execCli (s : State) : Host.Outcome State Fault Refusal :=
  implied 2 (fun s => s.setP { s.p with i := false }) s

/-- `78` SEI (R333): 2 cycles. -/
def execSei (s : State) : Host.Outcome State Fault Refusal :=
  implied 2 (fun s => s.setP { s.p with i := true }) s

/-- `D8` CLD (R334): 2 cycles. -/
def execCld (s : State) : Host.Outcome State Fault Refusal :=
  implied 2 (fun s => s.setP { s.p with d := false }) s

/-- `F8` SED (R335): 2 cycles. -/
def execSed (s : State) : Host.Outcome State Fault Refusal :=
  implied 2 (fun s => s.setP { s.p with d := true }) s

/-- `B8` CLV (R336): 2 cycles. -/
def execClv (s : State) : Host.Outcome State Fault Refusal :=
  implied 2 (fun s => s.setP { s.p with v := false }) s

/-- `EA` NOP (R337): 2 cycles. -/
def execNop (s : State) : Host.Outcome State Fault Refusal :=
  implied 2 id s

end Sys2Proof.Machine
end

