-- ==== Sys2Proof/Machine/IncDec.lean ====
section
/-! DEFINITION. Increments and decrements (spec/43_inc_dec_shift.md R270 to R275): one definition per opcode, over the shared operations. -/

namespace Sys2Proof.Machine

/-- `E6` INC $nn (R270): 5 cycles. -/
def execIncZp (zp : Byte) (s : State) : Host.Outcome State Fault Refusal :=
  rmwClass (.mem (.zp zp)) 5 incByte s

/-- `EE` INC $nnnn (R270): 6 cycles. -/
def execIncAbs (addr : Word) (s : State) : Host.Outcome State Fault Refusal :=
  rmwClass (.mem (.abs addr)) 6 incByte s

/-- `F6` INC $nn,X (R270): 6 cycles. -/
def execIncZpx (zp : Byte) (s : State) : Host.Outcome State Fault Refusal :=
  rmwClass (.mem (.zpx zp)) 6 incByte s

/-- `FE` INC $nnnn,X (R270): 7 cycles. -/
def execIncAbsx (addr : Word) (s : State) : Host.Outcome State Fault Refusal :=
  rmwClass (.mem (.absx addr)) 7 incByte s

/-- `C6` DEC $nn (R271): 5 cycles. -/
def execDecZp (zp : Byte) (s : State) : Host.Outcome State Fault Refusal :=
  rmwClass (.mem (.zp zp)) 5 decByte s

/-- `CE` DEC $nnnn (R271): 6 cycles. -/
def execDecAbs (addr : Word) (s : State) : Host.Outcome State Fault Refusal :=
  rmwClass (.mem (.abs addr)) 6 decByte s

/-- `D6` DEC $nn,X (R271): 6 cycles. -/
def execDecZpx (zp : Byte) (s : State) : Host.Outcome State Fault Refusal :=
  rmwClass (.mem (.zpx zp)) 6 decByte s

/-- `DE` DEC $nnnn,X (R271): 7 cycles. -/
def execDecAbsx (addr : Word) (s : State) : Host.Outcome State Fault Refusal :=
  rmwClass (.mem (.absx addr)) 7 decByte s

/-- `E8` INX (R272): 2 cycles. -/
def execInx (s : State) : Host.Outcome State Fault Refusal :=
  implied 2 (fun s => loadX (s.x + 1) s) s

/-- `C8` INY (R273): 2 cycles. -/
def execIny (s : State) : Host.Outcome State Fault Refusal :=
  implied 2 (fun s => loadY (s.y + 1) s) s

/-- `CA` DEX (R274): 2 cycles. -/
def execDex (s : State) : Host.Outcome State Fault Refusal :=
  implied 2 (fun s => loadX (s.x - 1) s) s

/-- `88` DEY (R275): 2 cycles. -/
def execDey (s : State) : Host.Outcome State Fault Refusal :=
  implied 2 (fun s => loadY (s.y - 1) s) s

end Sys2Proof.Machine
end

