-- ==== Sys2Proof/Machine/Loads.lean ====
section
/-! DEFINITION. Loads and stores (spec/40_load_store_transfer.md R200 to R205): one definition per opcode, over the shared operations. -/

namespace Sys2Proof.Machine

/-- `A1` LDA ($nn,X) (R200): 6 cycles. -/
def execLdaIzx (zp : Byte) (s : State) : Host.Outcome State Fault Refusal :=
  readClass (.mem (.izx zp)) 6 false loadA s

/-- `A5` LDA $nn (R200): 3 cycles. -/
def execLdaZp (zp : Byte) (s : State) : Host.Outcome State Fault Refusal :=
  readClass (.mem (.zp zp)) 3 false loadA s

/-- `A9` LDA #$nn (R200): 2 cycles. -/
def execLdaImm (v : Byte) (s : State) : Host.Outcome State Fault Refusal :=
  readClass (.imm v) 2 false loadA s

/-- `AD` LDA $nnnn (R200): 4 cycles. -/
def execLdaAbs (addr : Word) (s : State) : Host.Outcome State Fault Refusal :=
  readClass (.mem (.abs addr)) 4 false loadA s

/-- `B1` LDA ($nn),Y (R200): 5 cycles +1 on page cross. -/
def execLdaIzy (zp : Byte) (s : State) : Host.Outcome State Fault Refusal :=
  readClass (.mem (.izy zp)) 5 true loadA s

/-- `B5` LDA $nn,X (R200): 4 cycles. -/
def execLdaZpx (zp : Byte) (s : State) : Host.Outcome State Fault Refusal :=
  readClass (.mem (.zpx zp)) 4 false loadA s

/-- `B9` LDA $nnnn,Y (R200): 4 cycles +1 on page cross. -/
def execLdaAbsy (addr : Word) (s : State) : Host.Outcome State Fault Refusal :=
  readClass (.mem (.absy addr)) 4 true loadA s

/-- `BD` LDA $nnnn,X (R200): 4 cycles +1 on page cross. -/
def execLdaAbsx (addr : Word) (s : State) : Host.Outcome State Fault Refusal :=
  readClass (.mem (.absx addr)) 4 true loadA s

/-- `A2` LDX #$nn (R201): 2 cycles. -/
def execLdxImm (v : Byte) (s : State) : Host.Outcome State Fault Refusal :=
  readClass (.imm v) 2 false loadX s

/-- `A6` LDX $nn (R201): 3 cycles. -/
def execLdxZp (zp : Byte) (s : State) : Host.Outcome State Fault Refusal :=
  readClass (.mem (.zp zp)) 3 false loadX s

/-- `AE` LDX $nnnn (R201): 4 cycles. -/
def execLdxAbs (addr : Word) (s : State) : Host.Outcome State Fault Refusal :=
  readClass (.mem (.abs addr)) 4 false loadX s

/-- `B6` LDX $nn,Y (R201): 4 cycles. -/
def execLdxZpy (zp : Byte) (s : State) : Host.Outcome State Fault Refusal :=
  readClass (.mem (.zpy zp)) 4 false loadX s

/-- `BE` LDX $nnnn,Y (R201): 4 cycles +1 on page cross. -/
def execLdxAbsy (addr : Word) (s : State) : Host.Outcome State Fault Refusal :=
  readClass (.mem (.absy addr)) 4 true loadX s

/-- `A0` LDY #$nn (R202): 2 cycles. -/
def execLdyImm (v : Byte) (s : State) : Host.Outcome State Fault Refusal :=
  readClass (.imm v) 2 false loadY s

/-- `A4` LDY $nn (R202): 3 cycles. -/
def execLdyZp (zp : Byte) (s : State) : Host.Outcome State Fault Refusal :=
  readClass (.mem (.zp zp)) 3 false loadY s

/-- `AC` LDY $nnnn (R202): 4 cycles. -/
def execLdyAbs (addr : Word) (s : State) : Host.Outcome State Fault Refusal :=
  readClass (.mem (.abs addr)) 4 false loadY s

/-- `B4` LDY $nn,X (R202): 4 cycles. -/
def execLdyZpx (zp : Byte) (s : State) : Host.Outcome State Fault Refusal :=
  readClass (.mem (.zpx zp)) 4 false loadY s

/-- `BC` LDY $nnnn,X (R202): 4 cycles +1 on page cross. -/
def execLdyAbsx (addr : Word) (s : State) : Host.Outcome State Fault Refusal :=
  readClass (.mem (.absx addr)) 4 true loadY s

/-- `81` STA ($nn,X) (R203): 6 cycles. -/
def execStaIzx (zp : Byte) (s : State) : Host.Outcome State Fault Refusal :=
  writeClass (.izx zp) 6 s.a s

/-- `85` STA $nn (R203): 3 cycles. -/
def execStaZp (zp : Byte) (s : State) : Host.Outcome State Fault Refusal :=
  writeClass (.zp zp) 3 s.a s

/-- `8D` STA $nnnn (R203): 4 cycles. -/
def execStaAbs (addr : Word) (s : State) : Host.Outcome State Fault Refusal :=
  writeClass (.abs addr) 4 s.a s

/-- `91` STA ($nn),Y (R203): 6 cycles. -/
def execStaIzy (zp : Byte) (s : State) : Host.Outcome State Fault Refusal :=
  writeClass (.izy zp) 6 s.a s

/-- `95` STA $nn,X (R203): 4 cycles. -/
def execStaZpx (zp : Byte) (s : State) : Host.Outcome State Fault Refusal :=
  writeClass (.zpx zp) 4 s.a s

/-- `99` STA $nnnn,Y (R203): 5 cycles. -/
def execStaAbsy (addr : Word) (s : State) : Host.Outcome State Fault Refusal :=
  writeClass (.absy addr) 5 s.a s

/-- `9D` STA $nnnn,X (R203): 5 cycles. -/
def execStaAbsx (addr : Word) (s : State) : Host.Outcome State Fault Refusal :=
  writeClass (.absx addr) 5 s.a s

/-- `86` STX $nn (R204): 3 cycles. -/
def execStxZp (zp : Byte) (s : State) : Host.Outcome State Fault Refusal :=
  writeClass (.zp zp) 3 s.x s

/-- `8E` STX $nnnn (R204): 4 cycles. -/
def execStxAbs (addr : Word) (s : State) : Host.Outcome State Fault Refusal :=
  writeClass (.abs addr) 4 s.x s

/-- `96` STX $nn,Y (R204): 4 cycles. -/
def execStxZpy (zp : Byte) (s : State) : Host.Outcome State Fault Refusal :=
  writeClass (.zpy zp) 4 s.x s

/-- `84` STY $nn (R205): 3 cycles. -/
def execStyZp (zp : Byte) (s : State) : Host.Outcome State Fault Refusal :=
  writeClass (.zp zp) 3 s.y s

/-- `8C` STY $nnnn (R205): 4 cycles. -/
def execStyAbs (addr : Word) (s : State) : Host.Outcome State Fault Refusal :=
  writeClass (.abs addr) 4 s.y s

/-- `94` STY $nn,X (R205): 4 cycles. -/
def execStyZpx (zp : Byte) (s : State) : Host.Outcome State Fault Refusal :=
  writeClass (.zpx zp) 4 s.y s

end Sys2Proof.Machine
end

