-- ==== Sys2Proof/Machine/Logic.lean ====
section
/-! DEFINITION. Logic and BIT (spec/42_arith_logic.md R243 to R246): one definition per opcode, over the shared operations. -/

namespace Sys2Proof.Machine

/-- `A <- A & M; setNZ(A)` (R243). -/
def andA (m : Byte) (s : State) : State := loadA (s.a &&& m) s

/-- `A <- A | M; setNZ(A)` (R244). -/
def oraA (m : Byte) (s : State) : State := loadA (s.a ||| m) s

/-- `A <- A ^ M; setNZ(A)` (R245). -/
def eorA (m : Byte) (s : State) : State := loadA (s.a ^^^ m) s

/-- BIT (R246): flags only. -/
def bitA (m : Byte) (s : State) : State := s.setP (s.p.bitTest s.a m)

/-- `21` AND ($nn,X) (R243): 6 cycles. -/
def execAndIzx (zp : Byte) (s : State) : Host.Outcome State Fault Refusal :=
  readClass (.mem (.izx zp)) 6 false andA s

/-- `25` AND $nn (R243): 3 cycles. -/
def execAndZp (zp : Byte) (s : State) : Host.Outcome State Fault Refusal :=
  readClass (.mem (.zp zp)) 3 false andA s

/-- `29` AND #$nn (R243): 2 cycles. -/
def execAndImm (v : Byte) (s : State) : Host.Outcome State Fault Refusal :=
  readClass (.imm v) 2 false andA s

/-- `2D` AND $nnnn (R243): 4 cycles. -/
def execAndAbs (addr : Word) (s : State) : Host.Outcome State Fault Refusal :=
  readClass (.mem (.abs addr)) 4 false andA s

/-- `31` AND ($nn),Y (R243): 5 cycles +1 on page cross. -/
def execAndIzy (zp : Byte) (s : State) : Host.Outcome State Fault Refusal :=
  readClass (.mem (.izy zp)) 5 true andA s

/-- `35` AND $nn,X (R243): 4 cycles. -/
def execAndZpx (zp : Byte) (s : State) : Host.Outcome State Fault Refusal :=
  readClass (.mem (.zpx zp)) 4 false andA s

/-- `39` AND $nnnn,Y (R243): 4 cycles +1 on page cross. -/
def execAndAbsy (addr : Word) (s : State) : Host.Outcome State Fault Refusal :=
  readClass (.mem (.absy addr)) 4 true andA s

/-- `3D` AND $nnnn,X (R243): 4 cycles +1 on page cross. -/
def execAndAbsx (addr : Word) (s : State) : Host.Outcome State Fault Refusal :=
  readClass (.mem (.absx addr)) 4 true andA s

/-- `01` ORA ($nn,X) (R244): 6 cycles. -/
def execOraIzx (zp : Byte) (s : State) : Host.Outcome State Fault Refusal :=
  readClass (.mem (.izx zp)) 6 false oraA s

/-- `05` ORA $nn (R244): 3 cycles. -/
def execOraZp (zp : Byte) (s : State) : Host.Outcome State Fault Refusal :=
  readClass (.mem (.zp zp)) 3 false oraA s

/-- `09` ORA #$nn (R244): 2 cycles. -/
def execOraImm (v : Byte) (s : State) : Host.Outcome State Fault Refusal :=
  readClass (.imm v) 2 false oraA s

/-- `0D` ORA $nnnn (R244): 4 cycles. -/
def execOraAbs (addr : Word) (s : State) : Host.Outcome State Fault Refusal :=
  readClass (.mem (.abs addr)) 4 false oraA s

/-- `11` ORA ($nn),Y (R244): 5 cycles +1 on page cross. -/
def execOraIzy (zp : Byte) (s : State) : Host.Outcome State Fault Refusal :=
  readClass (.mem (.izy zp)) 5 true oraA s

/-- `15` ORA $nn,X (R244): 4 cycles. -/
def execOraZpx (zp : Byte) (s : State) : Host.Outcome State Fault Refusal :=
  readClass (.mem (.zpx zp)) 4 false oraA s

/-- `19` ORA $nnnn,Y (R244): 4 cycles +1 on page cross. -/
def execOraAbsy (addr : Word) (s : State) : Host.Outcome State Fault Refusal :=
  readClass (.mem (.absy addr)) 4 true oraA s

/-- `1D` ORA $nnnn,X (R244): 4 cycles +1 on page cross. -/
def execOraAbsx (addr : Word) (s : State) : Host.Outcome State Fault Refusal :=
  readClass (.mem (.absx addr)) 4 true oraA s

/-- `41` EOR ($nn,X) (R245): 6 cycles. -/
def execEorIzx (zp : Byte) (s : State) : Host.Outcome State Fault Refusal :=
  readClass (.mem (.izx zp)) 6 false eorA s

/-- `45` EOR $nn (R245): 3 cycles. -/
def execEorZp (zp : Byte) (s : State) : Host.Outcome State Fault Refusal :=
  readClass (.mem (.zp zp)) 3 false eorA s

/-- `49` EOR #$nn (R245): 2 cycles. -/
def execEorImm (v : Byte) (s : State) : Host.Outcome State Fault Refusal :=
  readClass (.imm v) 2 false eorA s

/-- `4D` EOR $nnnn (R245): 4 cycles. -/
def execEorAbs (addr : Word) (s : State) : Host.Outcome State Fault Refusal :=
  readClass (.mem (.abs addr)) 4 false eorA s

/-- `51` EOR ($nn),Y (R245): 5 cycles +1 on page cross. -/
def execEorIzy (zp : Byte) (s : State) : Host.Outcome State Fault Refusal :=
  readClass (.mem (.izy zp)) 5 true eorA s

/-- `55` EOR $nn,X (R245): 4 cycles. -/
def execEorZpx (zp : Byte) (s : State) : Host.Outcome State Fault Refusal :=
  readClass (.mem (.zpx zp)) 4 false eorA s

/-- `59` EOR $nnnn,Y (R245): 4 cycles +1 on page cross. -/
def execEorAbsy (addr : Word) (s : State) : Host.Outcome State Fault Refusal :=
  readClass (.mem (.absy addr)) 4 true eorA s

/-- `5D` EOR $nnnn,X (R245): 4 cycles +1 on page cross. -/
def execEorAbsx (addr : Word) (s : State) : Host.Outcome State Fault Refusal :=
  readClass (.mem (.absx addr)) 4 true eorA s

/-- `24` BIT $nn (R246): 3 cycles. -/
def execBitZp (zp : Byte) (s : State) : Host.Outcome State Fault Refusal :=
  readClass (.mem (.zp zp)) 3 false bitA s

/-- `2C` BIT $nnnn (R246): 4 cycles. -/
def execBitAbs (addr : Word) (s : State) : Host.Outcome State Fault Refusal :=
  readClass (.mem (.abs addr)) 4 false bitA s

end Sys2Proof.Machine
end

