-- ==== Sys2Proof/Machine/Shift.lean ====
section
/-! DEFINITION. Shifts and rotates (spec/43_inc_dec_shift.md R276 to R279): one definition per opcode, over the shared operations. -/

namespace Sys2Proof.Machine

/-- `06` ASL $nn (R276): 5 cycles. -/
def execAslZp (zp : Byte) (s : State) : Host.Outcome State Fault Refusal :=
  rmwClass (.mem (.zp zp)) 5 aslByte s

/-- `0A` ASL A (R276): 2 cycles. -/
def execAslAcc (s : State) : Host.Outcome State Fault Refusal :=
  rmwClass .acc 2 aslByte s

/-- `0E` ASL $nnnn (R276): 6 cycles. -/
def execAslAbs (addr : Word) (s : State) : Host.Outcome State Fault Refusal :=
  rmwClass (.mem (.abs addr)) 6 aslByte s

/-- `16` ASL $nn,X (R276): 6 cycles. -/
def execAslZpx (zp : Byte) (s : State) : Host.Outcome State Fault Refusal :=
  rmwClass (.mem (.zpx zp)) 6 aslByte s

/-- `1E` ASL $nnnn,X (R276): 7 cycles. -/
def execAslAbsx (addr : Word) (s : State) : Host.Outcome State Fault Refusal :=
  rmwClass (.mem (.absx addr)) 7 aslByte s

/-- `46` LSR $nn (R277): 5 cycles. -/
def execLsrZp (zp : Byte) (s : State) : Host.Outcome State Fault Refusal :=
  rmwClass (.mem (.zp zp)) 5 lsrByte s

/-- `4A` LSR A (R277): 2 cycles. -/
def execLsrAcc (s : State) : Host.Outcome State Fault Refusal :=
  rmwClass .acc 2 lsrByte s

/-- `4E` LSR $nnnn (R277): 6 cycles. -/
def execLsrAbs (addr : Word) (s : State) : Host.Outcome State Fault Refusal :=
  rmwClass (.mem (.abs addr)) 6 lsrByte s

/-- `56` LSR $nn,X (R277): 6 cycles. -/
def execLsrZpx (zp : Byte) (s : State) : Host.Outcome State Fault Refusal :=
  rmwClass (.mem (.zpx zp)) 6 lsrByte s

/-- `5E` LSR $nnnn,X (R277): 7 cycles. -/
def execLsrAbsx (addr : Word) (s : State) : Host.Outcome State Fault Refusal :=
  rmwClass (.mem (.absx addr)) 7 lsrByte s

/-- `26` ROL $nn (R278): 5 cycles. -/
def execRolZp (zp : Byte) (s : State) : Host.Outcome State Fault Refusal :=
  rmwClass (.mem (.zp zp)) 5 rolByte s

/-- `2A` ROL A (R278): 2 cycles. -/
def execRolAcc (s : State) : Host.Outcome State Fault Refusal :=
  rmwClass .acc 2 rolByte s

/-- `2E` ROL $nnnn (R278): 6 cycles. -/
def execRolAbs (addr : Word) (s : State) : Host.Outcome State Fault Refusal :=
  rmwClass (.mem (.abs addr)) 6 rolByte s

/-- `36` ROL $nn,X (R278): 6 cycles. -/
def execRolZpx (zp : Byte) (s : State) : Host.Outcome State Fault Refusal :=
  rmwClass (.mem (.zpx zp)) 6 rolByte s

/-- `3E` ROL $nnnn,X (R278): 7 cycles. -/
def execRolAbsx (addr : Word) (s : State) : Host.Outcome State Fault Refusal :=
  rmwClass (.mem (.absx addr)) 7 rolByte s

/-- `66` ROR $nn (R279): 5 cycles. -/
def execRorZp (zp : Byte) (s : State) : Host.Outcome State Fault Refusal :=
  rmwClass (.mem (.zp zp)) 5 rorByte s

/-- `6A` ROR A (R279): 2 cycles. -/
def execRorAcc (s : State) : Host.Outcome State Fault Refusal :=
  rmwClass .acc 2 rorByte s

/-- `6E` ROR $nnnn (R279): 6 cycles. -/
def execRorAbs (addr : Word) (s : State) : Host.Outcome State Fault Refusal :=
  rmwClass (.mem (.abs addr)) 6 rorByte s

/-- `76` ROR $nn,X (R279): 6 cycles. -/
def execRorZpx (zp : Byte) (s : State) : Host.Outcome State Fault Refusal :=
  rmwClass (.mem (.zpx zp)) 6 rorByte s

/-- `7E` ROR $nnnn,X (R279): 7 cycles. -/
def execRorAbsx (addr : Word) (s : State) : Host.Outcome State Fault Refusal :=
  rmwClass (.mem (.absx addr)) 7 rorByte s

end Sys2Proof.Machine
end

