-- ==== Sys2Proof/Machine/Stack.lean ====
section
/-! DEFINITION. Stack instructions (spec/41_stack_ops.md R220 to R223): one definition per opcode, over the shared operations. -/

namespace Sys2Proof.Machine

/-- `48` PHA (R220): 3 cycles. -/
def execPha (s : State) : Host.Outcome State Fault Refusal :=
  implied 3 (fun s => push s.a s) s

/-- `08` PHP (R221): 3 cycles. -/
def execPhp (s : State) : Host.Outcome State Fault Refusal :=
  implied 3 (fun s => push (s.p.serialize true) s) s

/-- `68` PLA (R222): 4 cycles. -/
def execPla (s : State) : Host.Outcome State Fault Refusal := outcome do
  let (v, s1) ← pull s
  .ok (complete (s.pc + 1) 4 (loadA v s1))

/-- `28` PLP (R223): 4 cycles. -/
def execPlp (s : State) : Host.Outcome State Fault Refusal := outcome do
  let (st, s1) ← pull s
  .ok (complete (s.pc + 1) 4 (s1.setP (Flags.ofByte st)))

end Sys2Proof.Machine
end

