-- ==== Sys2Proof/Machine/Transfers.lean ====
section
/-! DEFINITION. Register transfers (spec/40_load_store_transfer.md R206 to R211): one definition per opcode, over the shared operations. -/

namespace Sys2Proof.Machine

/-- `AA` TAX (R206): 2 cycles. -/
def execTax (s : State) : Host.Outcome State Fault Refusal :=
  implied 2 (fun s => loadX s.a s) s

/-- `A8` TAY (R207): 2 cycles. -/
def execTay (s : State) : Host.Outcome State Fault Refusal :=
  implied 2 (fun s => loadY s.a s) s

/-- `8A` TXA (R208): 2 cycles. -/
def execTxa (s : State) : Host.Outcome State Fault Refusal :=
  implied 2 (fun s => loadA s.x s) s

/-- `98` TYA (R209): 2 cycles. -/
def execTya (s : State) : Host.Outcome State Fault Refusal :=
  implied 2 (fun s => loadA s.y s) s

/-- `BA` TSX (R210): 2 cycles. -/
def execTsx (s : State) : Host.Outcome State Fault Refusal :=
  implied 2 (fun s => loadX s.sp s) s

/-- `9A` TXS (R211): 2 cycles. -/
def execTxs (s : State) : Host.Outcome State Fault Refusal :=
  implied 2 (fun s => s.setSp s.x) s

end Sys2Proof.Machine
end

