-- ==== Sys2Proof/Machine/Dispatch.lean ====
section
/-! DEFINITION. The meaning of each instruction: one arm per constructor of `Instr`. `s` is the state after
the instruction's own bytes are fetched, with PC still at its opcode byte (spec/35_execution.md R120,
R122). -/

namespace Sys2Proof.Machine

/-- Execute a decoded instruction. -/
def exec (i : Instr) (s : State) : Host.Outcome State Fault Refusal :=
  match i with
  | .brk => Sys2Proof.Machine.execBrk s
  | .oraIzx zp => Sys2Proof.Machine.execOraIzx zp s
  | .oraZp zp => Sys2Proof.Machine.execOraZp zp s
  | .aslZp zp => Sys2Proof.Machine.execAslZp zp s
  | .php => Sys2Proof.Machine.execPhp s
  | .oraImm v => Sys2Proof.Machine.execOraImm v s
  | .aslAcc => Sys2Proof.Machine.execAslAcc s
  | .oraAbs addr => Sys2Proof.Machine.execOraAbs addr s
  | .aslAbs addr => Sys2Proof.Machine.execAslAbs addr s
  | .bpl d => Sys2Proof.Machine.execBpl d s
  | .oraIzy zp => Sys2Proof.Machine.execOraIzy zp s
  | .oraZpx zp => Sys2Proof.Machine.execOraZpx zp s
  | .aslZpx zp => Sys2Proof.Machine.execAslZpx zp s
  | .clc => Sys2Proof.Machine.execClc s
  | .oraAbsy addr => Sys2Proof.Machine.execOraAbsy addr s
  | .oraAbsx addr => Sys2Proof.Machine.execOraAbsx addr s
  | .aslAbsx addr => Sys2Proof.Machine.execAslAbsx addr s
  | .jsr addr => Sys2Proof.Machine.execJsr addr s
  | .andIzx zp => Sys2Proof.Machine.execAndIzx zp s
  | .bitZp zp => Sys2Proof.Machine.execBitZp zp s
  | .andZp zp => Sys2Proof.Machine.execAndZp zp s
  | .rolZp zp => Sys2Proof.Machine.execRolZp zp s
  | .plp => Sys2Proof.Machine.execPlp s
  | .andImm v => Sys2Proof.Machine.execAndImm v s
  | .rolAcc => Sys2Proof.Machine.execRolAcc s
  | .bitAbs addr => Sys2Proof.Machine.execBitAbs addr s
  | .andAbs addr => Sys2Proof.Machine.execAndAbs addr s
  | .rolAbs addr => Sys2Proof.Machine.execRolAbs addr s
  | .bmi d => Sys2Proof.Machine.execBmi d s
  | .andIzy zp => Sys2Proof.Machine.execAndIzy zp s
  | .andZpx zp => Sys2Proof.Machine.execAndZpx zp s
  | .rolZpx zp => Sys2Proof.Machine.execRolZpx zp s
  | .sec => Sys2Proof.Machine.execSec s
  | .andAbsy addr => Sys2Proof.Machine.execAndAbsy addr s
  | .andAbsx addr => Sys2Proof.Machine.execAndAbsx addr s
  | .rolAbsx addr => Sys2Proof.Machine.execRolAbsx addr s
  | .rti => Sys2Proof.Machine.execRti s
  | .eorIzx zp => Sys2Proof.Machine.execEorIzx zp s
  | .eorZp zp => Sys2Proof.Machine.execEorZp zp s
  | .lsrZp zp => Sys2Proof.Machine.execLsrZp zp s
  | .pha => Sys2Proof.Machine.execPha s
  | .eorImm v => Sys2Proof.Machine.execEorImm v s
  | .lsrAcc => Sys2Proof.Machine.execLsrAcc s
  | .jmpAbs addr => Sys2Proof.Machine.execJmpAbs addr s
  | .eorAbs addr => Sys2Proof.Machine.execEorAbs addr s
  | .lsrAbs addr => Sys2Proof.Machine.execLsrAbs addr s
  | .bvc d => Sys2Proof.Machine.execBvc d s
  | .eorIzy zp => Sys2Proof.Machine.execEorIzy zp s
  | .eorZpx zp => Sys2Proof.Machine.execEorZpx zp s
  | .lsrZpx zp => Sys2Proof.Machine.execLsrZpx zp s
  | .cli => Sys2Proof.Machine.execCli s
  | .eorAbsy addr => Sys2Proof.Machine.execEorAbsy addr s
  | .eorAbsx addr => Sys2Proof.Machine.execEorAbsx addr s
  | .lsrAbsx addr => Sys2Proof.Machine.execLsrAbsx addr s
  | .rts => Sys2Proof.Machine.execRts s
  | .adcIzx zp => Sys2Proof.Machine.execAdcIzx zp s
  | .adcZp zp => Sys2Proof.Machine.execAdcZp zp s
  | .rorZp zp => Sys2Proof.Machine.execRorZp zp s
  | .pla => Sys2Proof.Machine.execPla s
  | .adcImm v => Sys2Proof.Machine.execAdcImm v s
  | .rorAcc => Sys2Proof.Machine.execRorAcc s
  | .jmpInd ptr => Sys2Proof.Machine.execJmpInd ptr s
  | .adcAbs addr => Sys2Proof.Machine.execAdcAbs addr s
  | .rorAbs addr => Sys2Proof.Machine.execRorAbs addr s
  | .bvs d => Sys2Proof.Machine.execBvs d s
  | .adcIzy zp => Sys2Proof.Machine.execAdcIzy zp s
  | .adcZpx zp => Sys2Proof.Machine.execAdcZpx zp s
  | .rorZpx zp => Sys2Proof.Machine.execRorZpx zp s
  | .sei => Sys2Proof.Machine.execSei s
  | .adcAbsy addr => Sys2Proof.Machine.execAdcAbsy addr s
  | .adcAbsx addr => Sys2Proof.Machine.execAdcAbsx addr s
  | .rorAbsx addr => Sys2Proof.Machine.execRorAbsx addr s
  | .staIzx zp => Sys2Proof.Machine.execStaIzx zp s
  | .styZp zp => Sys2Proof.Machine.execStyZp zp s
  | .staZp zp => Sys2Proof.Machine.execStaZp zp s
  | .stxZp zp => Sys2Proof.Machine.execStxZp zp s
  | .dey => Sys2Proof.Machine.execDey s
  | .txa => Sys2Proof.Machine.execTxa s
  | .styAbs addr => Sys2Proof.Machine.execStyAbs addr s
  | .staAbs addr => Sys2Proof.Machine.execStaAbs addr s
  | .stxAbs addr => Sys2Proof.Machine.execStxAbs addr s
  | .bcc d => Sys2Proof.Machine.execBcc d s
  | .staIzy zp => Sys2Proof.Machine.execStaIzy zp s
  | .styZpx zp => Sys2Proof.Machine.execStyZpx zp s
  | .staZpx zp => Sys2Proof.Machine.execStaZpx zp s
  | .stxZpy zp => Sys2Proof.Machine.execStxZpy zp s
  | .tya => Sys2Proof.Machine.execTya s
  | .staAbsy addr => Sys2Proof.Machine.execStaAbsy addr s
  | .txs => Sys2Proof.Machine.execTxs s
  | .staAbsx addr => Sys2Proof.Machine.execStaAbsx addr s
  | .ldyImm v => Sys2Proof.Machine.execLdyImm v s
  | .ldaIzx zp => Sys2Proof.Machine.execLdaIzx zp s
  | .ldxImm v => Sys2Proof.Machine.execLdxImm v s
  | .ldyZp zp => Sys2Proof.Machine.execLdyZp zp s
  | .ldaZp zp => Sys2Proof.Machine.execLdaZp zp s
  | .ldxZp zp => Sys2Proof.Machine.execLdxZp zp s
  | .tay => Sys2Proof.Machine.execTay s
  | .ldaImm v => Sys2Proof.Machine.execLdaImm v s
  | .tax => Sys2Proof.Machine.execTax s
  | .ldyAbs addr => Sys2Proof.Machine.execLdyAbs addr s
  | .ldaAbs addr => Sys2Proof.Machine.execLdaAbs addr s
  | .ldxAbs addr => Sys2Proof.Machine.execLdxAbs addr s
  | .bcs d => Sys2Proof.Machine.execBcs d s
  | .ldaIzy zp => Sys2Proof.Machine.execLdaIzy zp s
  | .ldyZpx zp => Sys2Proof.Machine.execLdyZpx zp s
  | .ldaZpx zp => Sys2Proof.Machine.execLdaZpx zp s
  | .ldxZpy zp => Sys2Proof.Machine.execLdxZpy zp s
  | .clv => Sys2Proof.Machine.execClv s
  | .ldaAbsy addr => Sys2Proof.Machine.execLdaAbsy addr s
  | .tsx => Sys2Proof.Machine.execTsx s
  | .ldyAbsx addr => Sys2Proof.Machine.execLdyAbsx addr s
  | .ldaAbsx addr => Sys2Proof.Machine.execLdaAbsx addr s
  | .ldxAbsy addr => Sys2Proof.Machine.execLdxAbsy addr s
  | .cpyImm v => Sys2Proof.Machine.execCpyImm v s
  | .cmpIzx zp => Sys2Proof.Machine.execCmpIzx zp s
  | .cpyZp zp => Sys2Proof.Machine.execCpyZp zp s
  | .cmpZp zp => Sys2Proof.Machine.execCmpZp zp s
  | .decZp zp => Sys2Proof.Machine.execDecZp zp s
  | .iny => Sys2Proof.Machine.execIny s
  | .cmpImm v => Sys2Proof.Machine.execCmpImm v s
  | .dex => Sys2Proof.Machine.execDex s
  | .cpyAbs addr => Sys2Proof.Machine.execCpyAbs addr s
  | .cmpAbs addr => Sys2Proof.Machine.execCmpAbs addr s
  | .decAbs addr => Sys2Proof.Machine.execDecAbs addr s
  | .bne d => Sys2Proof.Machine.execBne d s
  | .cmpIzy zp => Sys2Proof.Machine.execCmpIzy zp s
  | .cmpZpx zp => Sys2Proof.Machine.execCmpZpx zp s
  | .decZpx zp => Sys2Proof.Machine.execDecZpx zp s
  | .cld => Sys2Proof.Machine.execCld s
  | .cmpAbsy addr => Sys2Proof.Machine.execCmpAbsy addr s
  | .cmpAbsx addr => Sys2Proof.Machine.execCmpAbsx addr s
  | .decAbsx addr => Sys2Proof.Machine.execDecAbsx addr s
  | .cpxImm v => Sys2Proof.Machine.execCpxImm v s
  | .sbcIzx zp => Sys2Proof.Machine.execSbcIzx zp s
  | .cpxZp zp => Sys2Proof.Machine.execCpxZp zp s
  | .sbcZp zp => Sys2Proof.Machine.execSbcZp zp s
  | .incZp zp => Sys2Proof.Machine.execIncZp zp s
  | .inx => Sys2Proof.Machine.execInx s
  | .sbcImm v => Sys2Proof.Machine.execSbcImm v s
  | .nop => Sys2Proof.Machine.execNop s
  | .cpxAbs addr => Sys2Proof.Machine.execCpxAbs addr s
  | .sbcAbs addr => Sys2Proof.Machine.execSbcAbs addr s
  | .incAbs addr => Sys2Proof.Machine.execIncAbs addr s
  | .beq d => Sys2Proof.Machine.execBeq d s
  | .sbcIzy zp => Sys2Proof.Machine.execSbcIzy zp s
  | .sbcZpx zp => Sys2Proof.Machine.execSbcZpx zp s
  | .incZpx zp => Sys2Proof.Machine.execIncZpx zp s
  | .sed => Sys2Proof.Machine.execSed s
  | .sbcAbsy addr => Sys2Proof.Machine.execSbcAbsy addr s
  | .sbcAbsx addr => Sys2Proof.Machine.execSbcAbsx addr s
  | .incAbsx addr => Sys2Proof.Machine.execIncAbsx addr s

end Sys2Proof.Machine
end

