-- ==== Sys2Proof/Machine/Step.lean ====
section
/-! DEFINITION. One step of the machine (spec/35_execution.md R120; spec/60_exceptions.md R506), and placing
an instruction where the next step fetches it. -/

namespace Sys2Proof.Machine

/-- One step: a pending unmasked IRQ is taken before the opcode fetch; otherwise one instruction is
fetched and executed. -/
def step (s : State) : Host.Outcome State Fault Refusal :=
  if irqPending s then takeIrq s
  else
    match fetch s with
    | .ok (i, s1) => exec i s1
    | .error f => .fault f

/-- `s` with the instruction whose bits are the `nbits` low bits of `w` placed where the next step fetches
it: see `placeBytes`. -/
def State.withFetchWord (s : State) (nbits w : Nat) : State :=
  placeBytes s.pc (tableWordBytes nbits w) s

end Sys2Proof.Machine
end

