-- ==== Sys2Proof/Machine/Gcr.lean ====
section
/-! DEFINITION. The GCR nibble codec (spec/51_gcr_codec.md): the 4-and-4 code, the 6-and-2 code, track
framing, interleave, and the host's track decoder. All are pure functions of byte lists; the entry points
fault on a buffer of the wrong size (R459). -/

namespace Sys2Proof.Machine

/-- Why a data field does not decode (R457). -/
inductive CodecError where
  | badNibble (k : Nat)
  | badChecksum
deriving DecidableEq, Repr

/-- `SECTOR_BYTES`, `SECTORS_PER_TRACK`, `NUM_TRACKS`, `IMAGE_BYTES`, `DATA_NIBBLES` (R5). -/
def sectorBytes : Nat := 256
def sectorsPerTrack : Nat := 16
def numTracks : Nat := 35
def imageBytes : Nat := 143360
def dataNibbles : Nat := 343

/-! ### The 4-and-4 code -/

/-- `fourAndFourEncode(b)` (R450): the odd-numbered bits, then the even-numbered bits. -/
def fourAndFourEncode (b : Byte) : Byte × Byte :=
  (((b >>> 1) &&& 0x55) ||| 0xAA, (b &&& 0x55) ||| 0xAA)

/-- The code as a u16, `e1 ++ e2` (R452). -/
def fourAndFourWord (b : Byte) : Word := joinBytes (fourAndFourEncode b).1 (fourAndFourEncode b).2

/-- `fourAndFourDecode(e1, e2)` (R451). -/
def fourAndFourDecode (e1 e2 : Byte) : Byte := ((e1 <<< 1) ||| 1) &&& e2

/-! ### The 6-and-2 table -/

/-- `T62` (R453). -/
def t62Table : List Byte := [
  0x96, 0x97, 0x9A, 0x9B, 0x9D, 0x9E, 0x9F, 0xA6, 0xA7, 0xAB, 0xAC, 0xAD, 0xAE, 0xAF, 0xB2, 0xB3,
  0xB4, 0xB5, 0xB6, 0xB7, 0xB9, 0xBA, 0xBB, 0xBC, 0xBD, 0xBE, 0xBF, 0xCB, 0xCD, 0xCE, 0xCF, 0xD3,
  0xD6, 0xD7, 0xD9, 0xDA, 0xDB, 0xDC, 0xDD, 0xDE, 0xDF, 0xE5, 0xE6, 0xE7, 0xE9, 0xEA, 0xEB, 0xEC,
  0xED, 0xEE, 0xEF, 0xF2, 0xF3, 0xF4, 0xF5, 0xF6, 0xF7, 0xF9, 0xFA, 0xFB, 0xFC, 0xFD, 0xFE, 0xFF]

/-- `T62[v]`. The table has 64 entries, so the default is never used. -/
def t62 (v : BitVec 6) : Byte := t62Table.getD v.toNat 0x00

/-- The index of a byte in a list, counted from `k`. -/
def indexFrom (b : Byte) : Nat → List Byte → Option Nat
  | _, [] => none
  | k, t :: ts => if b = t then some k else indexFrom b (k + 1) ts

/-- `INV62[b]` (R454): `none` on the bytes outside the table. -/
def inv62 (b : Byte) : Option (BitVec 6) := (indexFrom b 0 t62Table).map (BitVec.ofNat 6)

/-! ### 6-and-2 encode -/

/-- `swap2` of the low two bits of `b` (51_gcr_codec.md, notation). -/
def swap2 (b : Byte) : BitVec 6 :=
  (((b &&& 1) <<< 1) ||| ((b >>> 1) &&& 1)).setWidth 6

/-- The auxiliary value `i` of a sector (R455). -/
def auxValue (d : List Byte) (i : Nat) : BitVec 6 :=
  swap2 (d.getD i 0) ||| (swap2 (d.getD (i + 86) 0) <<< 2) |||
    (if i + 172 ≤ 255 then swap2 (d.getD (i + 172) 0) <<< 4 else 0)

/-- Pre-nibblizing (R455): the 86 auxiliary values, then the top six bits of each byte. -/
def prenibblize (d : List Byte) : List (BitVec 6) :=
  (List.range 86).map (auxValue d) ++ d.map (fun (b : Byte) => (b >>> 2).setWidth 6)

/-- The XOR chain and the translation (R456); at the end of the values, the checksum nibble. -/
def chainEncode (prev : BitVec 6) : List (BitVec 6) → List Byte
  | [] => [t62 prev]
  | v :: vs => t62 (v ^^^ prev) :: chainEncode v vs

/-- The data field of a 256-byte sector (R456), with no check of its size. -/
def encodeSector (d : List Byte) : List Byte := chainEncode 0 (prenibblize d)

/-- `sixAndTwoEncode` (R456, R459). -/
def sixAndTwoEncode (d : List Byte) : Except Fault (List Byte) :=
  if d.length = sectorBytes then .ok (encodeSector d) else .error .codecLength

/-! ### 6-and-2 decode -/

/-- Undo the XOR chain (R457). The last nibble is the checksum. `k` is the index of the first nibble. -/
def chainDecode (prev : BitVec 6) (k : Nat) : List Byte → Except CodecError (List (BitVec 6))
  | [] => .ok []
  | [n] =>
    match inv62 n with
    | none => .error (.badNibble k)
    | some c => if c = prev then .ok [] else .error .badChecksum
  | n :: m :: ns =>
    match inv62 n with
    | none => .error (.badNibble k)
    | some u =>
      match chainDecode (u ^^^ prev) (k + 1) (m :: ns) with
      | .error e => .error e
      | .ok vs => .ok ((u ^^^ prev) :: vs)

/-- Byte `i` of the sector with the 342 values `v` (R457). -/
def joinValues (v : List (BitVec 6)) (i : Nat) : Byte :=
  let lo2 := (v.getD (i % 86) 0 >>> (2 * (i / 86))) &&& 3
  ((v.getD (86 + i) 0).setWidth 8 <<< 2) ||| (swap2 (lo2.setWidth 8)).setWidth 8

/-- The sector of a 343-nibble data field (R457), with no check of its size. -/
def decodeSector (n : List Byte) : Except CodecError (List Byte) :=
  match chainDecode 0 0 n with
  | .error e => .error e
  | .ok v => .ok ((List.range 256).map (joinValues v))

/-- `sixAndTwoDecode` (R457, R459). -/
def sixAndTwoDecode (n : List Byte) : Except Fault (Except CodecError (List Byte)) :=
  if n.length = dataNibbles then .ok (decodeSector n) else .error .codecLength

/-! ### Track framing -/

/-- Sync bytes (R470). -/
def syncBytes (n : Nat) : List Byte := List.replicate n 0xFF

/-- The 4-and-4 code on the track: e1 first (R450). -/
def fourAndFourBytes (b : Byte) : List Byte := [(fourAndFourEncode b).1, (fourAndFourEncode b).2]

/-- The address field of physical sector `p` of track `t` (R470, R474). -/
def addressField (vol t p : Byte) : List Byte :=
  [0xD5, 0xAA, 0x96] ++ fourAndFourBytes vol ++ fourAndFourBytes t ++ fourAndFourBytes p ++
    fourAndFourBytes (vol ^^^ t ^^^ p) ++ [0xDE, 0xAA, 0xEB]

/-- The data field of a sector, with its marks (R470). -/
def dataField (sector : List Byte) : List Byte :=
  [0xD5, 0xAA, 0xAD] ++ encodeSector sector ++ [0xDE, 0xAA, 0xEB]

/-- One sector field (R470). -/
def sectorField (cfg : Config) (vol t p : Byte) (sector : List Byte) : List Byte :=
  syncBytes cfg.gap1 ++ addressField vol t p ++ syncBytes cfg.gap2 ++ dataField sector ++
    syncBytes cfg.gap3

/-- The length of a sector field (R470). -/
def sectorFieldLen (cfg : Config) : Nat := cfg.gap1 + cfg.gap2 + cfg.gap3 + 363

/-- `TRACK_LEN` (R470). -/
def trackLen (cfg : Config) : Nat := sectorsPerTrack * sectorFieldLen cfg

/-- The interleave tables (R472): the image sector that physical sector `p` carries. -/
def Interleave.table : Interleave → List Nat
  | .dos33 => [0, 7, 14, 6, 13, 5, 12, 4, 11, 3, 10, 2, 9, 1, 8, 15]
  | .prodos => [0, 8, 1, 9, 2, 10, 3, 11, 4, 12, 5, 13, 6, 14, 7, 15]

/-- The inverse tables (R473): the physical position of an image sector. -/
def Interleave.inverse : Interleave → List Nat
  | .dos33 => [0, 13, 11, 9, 7, 5, 3, 1, 14, 12, 10, 8, 6, 4, 2, 15]
  | .prodos => [0, 2, 4, 6, 8, 10, 12, 14, 1, 3, 5, 7, 9, 11, 13, 15]

/-- Image sector `s` of track `t` (R472). -/
def imageSector (image : List Byte) (t s : Nat) : List Byte := (image.drop ((t * 16 + s) * 256)).take 256

/-- The track buffer of track `t` (R470), with no check of the image's size. -/
def trackBuffer (cfg : Config) (image : List Byte) (t : Nat) (vol : Byte) (order : Interleave) : List Byte :=
  (List.range 16).flatMap (fun p =>
    sectorField cfg vol (BitVec.ofNat 8 t) (BitVec.ofNat 8 p) (imageSector image t (order.table.getD p 0)))

/-- `encodeTrack` (R470, R459): an image of the wrong size, or a track number past 34, is a caller
error. -/
def encodeTrack (cfg : Config) (image : List Byte) (t : Nat) (vol : Byte) (order : Interleave) :
    Except Fault (List Byte) :=
  if image.length = imageBytes ∧ t < numTracks then .ok (trackBuffer cfg image t vol order)
  else .error .codecLength

/-- The 35 track buffers of an image (R430, R471), with no check of its size. -/
def imageTracks (cfg : Config) (image : List Byte) (order : Interleave) : List (List Byte) :=
  (List.range 35).map (fun t => trackBuffer cfg image t cfg.volume order)

/-- `encodeImage` (R476, R459). -/
def encodeImage (cfg : Config) (image : List Byte) (order : Interleave) : Except Fault (List (List Byte)) :=
  if image.length = imageBytes then .ok (imageTracks cfg image order) else .error .codecLength

/-! ### Track decode -/

/-- Byte `i` of a circular buffer (R475). The default is used for an empty buffer only, which has no
start position. -/
def circularAt (buf : List Byte) (i : Nat) : Byte := buf.getD (i % buf.length) 0x00

/-- Whether three bytes stand at position `i` of a circular buffer (R475). -/
def markAt (buf : List Byte) (i : Nat) (a b c : Byte) : Bool :=
  circularAt buf i == a && circularAt buf (i + 1) == b && circularAt buf (i + 2) == c

/-- The 4-and-4 value at position `i` (R475). -/
def fourAndFourAt (buf : List Byte) (i : Nat) : Byte :=
  fourAndFourDecode (circularAt buf i) (circularAt buf (i + 1))

/-- The least position of a data prologue from 14 bytes after an address prologue at `i`, within one
turn (R475). -/
def findDataPrologue (buf : List Byte) (i : Nat) : Option Nat :=
  ((List.range buf.length).map (i + 14 + ·)).find? (fun j => markAt buf j 0xD5 0xAA 0xAD)

/-- The 343 nibbles from position `j` (R475). -/
def nibblesFrom (buf : List Byte) (j : Nat) : List Byte := (List.range 343).map (fun k => circularAt buf (j + k))

/-- What the address field at `i`, if there is one, recovers: a physical sector number and its data
(R475). -/
def sectorAt (buf : List Byte) (i : Nat) : Option (Nat × List Byte) :=
  if markAt buf i 0xD5 0xAA 0x96 then
    let vol := fourAndFourAt buf (i + 3)
    let trk := fourAndFourAt buf (i + 5)
    let sec := fourAndFourAt buf (i + 7)
    let chk := fourAndFourAt buf (i + 9)
    if chk ≠ (vol ^^^ trk ^^^ sec) ∨ sec.toNat > 15 then none
    else
      match findDataPrologue buf i with
      | none => none
      | some j =>
        match decodeSector (nibblesFrom buf (j + 3)) with
        | .ok data => some (sec.toNat, data)
        | .error _ => none
  else none

/-- Put a recovered sector in its image place, unless an earlier field filled it (R475). -/
def placeSector (order : Interleave) (out : List (Option (List Byte))) :
    Option (Nat × List Byte) → List (Option (List Byte))
  | none => out
  | some (sec, data) =>
    let s := order.table.getD sec 0
    match out.getD s none with
    | none => out.set s (some data)
    | some _ => out

/-- `decodeTrack` (R475). -/
def decodeTrack (buf : List Byte) (order : Interleave) : List (Option (List Byte)) :=
  (List.range buf.length).foldl (fun out i => placeSector order out (sectorAt buf i)) (List.replicate 16 none)

/-- The sectors of a track in image order, if none is missing. -/
def joinSectors : List (Option (List Byte)) → Option (List Byte)
  | [] => some []
  | none :: _ => none
  | some d :: rest => (joinSectors rest).map (d ++ ·)

/-- The tracks of an image in order, if none is missing. -/
def joinTracks (order : Interleave) : List (List Byte) → Option (List Byte)
  | [] => some []
  | buf :: rest =>
    match joinSectors (decodeTrack buf order) with
    | none => none
    | some t => (joinTracks order rest).map (t ++ ·)

/-- `decodeImage` (R476): `none` if a sector of some track is missing; an image that has not 35 tracks is
a caller error (R459). -/
def decodeImage (tracks : List (List Byte)) (order : Interleave) : Except Fault (Option (List Byte)) :=
  if tracks.length = numTracks then .ok (joinTracks order tracks) else .error .codecLength

end Sys2Proof.Machine
end

