-- ==== Sys2Proof/Machine/HostApi.lean ====
section
/-! DEFINITION. The host API (spec/35_execution.md R160 to R163; spec/20_memory.md R61, R67, R68;
spec/50_disk_controller.md R430; spec/70_reset_and_hazards.md R550 to R554). Every call is made between
instructions and is a function on the state. -/

namespace Sys2Proof.Machine

/-- A descriptive I/O error of `loadBinary` or `attachDiskImage`; the call changes nothing (R68, R430). -/
inductive IoError where
  | missingFile
  | shortFile
  | outOfRange
  | wrongLength
  | unknownExtension
deriving DecidableEq, Repr

/-! ### Memory -/

/-- `loadBinary(file, offset, length)` (R68); `none` is a missing file. -/
def loadBinary (file : Option (List Byte)) (offset length : Nat) (s : State) : Except IoError State :=
  match file with
  | none => .error .missingFile
  | some bytes =>
    if bytes.length < length then .error .shortFile
    else if offset + length > 65536 then .error .outOfRange
    else .ok (s.setMem (storeBytes s.mem (BitVec.ofNat 16 offset) (bytes.take length)))

/-- Which list a hook goes to (R67). -/
inductive HookKind where
  | read
  | write
deriving DecidableEq, Repr

/-- `installHook(h)` (R67): appended, so that earlier hooks keep their priority. -/
def installHook (k : HookKind) (h : Hook) (s : State) : State :=
  match k with
  | .read => { s with readHooks := s.readHooks ++ [h] }
  | .write => { s with writeHooks := s.writeHooks ++ [h] }

/-- `readByte(addr, bypassHooks)` by the host (R61, R62). -/
def hostRead (a : Word) (bypassHooks : Bool) (s : State) : Except Fault (Byte × State) :=
  if bypassHooks then .ok (rawRead s a, s) else readByte a s

/-- `writeByte(addr, value, bypassHooks)` by the host (R61, R64). -/
def hostWrite (a : Word) (v : Byte) (bypassHooks : Bool) (s : State) : State :=
  if bypassHooks then rawWrite a v s else writeByte a v s

/-! ### Construction and reset -/

/-- `INIT_REGS` (R5, D11): the drawn values of the registers and flags at construction. -/
structure InitRegs where
  a : Byte
  x : Byte
  y : Byte
  sp : Byte
  pc : Word
  p : Flags
deriving DecidableEq, Repr

/-- Construction up to the platform's loads (R550, steps 1 to 6): the parameters, `INITIAL_PAGE_MODES`,
the drawn registers, and the extra hooks after the Disk II's (R78). -/
def construct (cfg : Config) (pages : List (Nat × PageMode)) (extraRead extraWrite : List Hook)
    (r : InitRegs) : State where
  cfg := cfg
  a := r.a
  x := r.x
  y := r.y
  sp := r.sp
  pc := r.pc
  p := r.p
  totalCycles := 0
  breakpoints := []
  cancelRequested := false
  irqLine := false
  mem := []
  pageModes := pages
  readHooks := diskReadHooks cfg ++ extraRead
  writeHooks := diskWriteHooks cfg ++ extraWrite
  dev := { drive := Drive.initial, extra := [], busLog := [] }
  draws := 0

/-- `reset()` (R552): SP and I, then the vector through the hooks. No cycles, nothing pushed. -/
def warmReset (s : State) : Except Fault State := do
  let (target, s1) ← read16 resetVector ((s.setSp 0xFF).setP { s.p with i := true })
  .ok (s1.setPc target)

/-- The backing array with the bytes below `base` cleared to 0x00 (R553). -/
def clearBelow (base : Nat) (m : List Host.Cell) : List Host.Cell :=
  (List.range base).map (fun a => (a, (0x00 : Byte))) ++ m.filter (fun c => decide (base ≤ c.1))

/-- `coldReset()` (R553). -/
def coldReset (s : State) : Except Fault State :=
  warmReset { s with
    a := 0x00
    x := 0x00
    y := 0x00
    p := { n := false, v := false, b := false, d := false, i := false, z := false, c := false }
    mem := clearBelow s.cfg.romBase s.mem }

/-! ### Breakpoints, cancellation, the IRQ line -/

/-- A rising list of addresses with one added; nothing changes if it is there. -/
def insertAddr (a : Word) : List Word → List Word
  | [] => [a]
  | b :: bs => if a.toNat < b.toNat then a :: b :: bs else if a = b then b :: bs else b :: insertAddr a bs

/-- Add a breakpoint (R28). -/
def addBreakpoint (a : Word) (s : State) : State := { s with breakpoints := insertAddr a s.breakpoints }

/-- Remove a breakpoint (R28). -/
def removeBreakpoint (a : Word) (s : State) : State :=
  { s with breakpoints := s.breakpoints.filter (fun b => decide (b ≠ a)) }

/-- List the breakpoints (R28). -/
def listBreakpoints (s : State) : List Word := s.breakpoints

/-- Ask the running batch to stop (R29). -/
def requestCancel (s : State) : State := { s with cancelRequested := true }

/-- Set the optional IRQ line (R506). -/
def setIrqLine (level : Bool) (s : State) : State := { s with irqLine := level }

/-! ### runBatch -/

/-- Why a batch stops (R162). -/
inductive StopReason where
  | budgetExhausted
  | breakpoint (addr : Word)
  | invalidOpcode (pc : Word)
  | cancelled
deriving DecidableEq, Repr

/-- The result of a batch: a stop with the state left, or a model fault or refusal, which is never a
final state (R8). -/
inductive BatchResult where
  | stopped (r : StopReason) (s : State)
  | fault (f : Fault)
  | refused (r : Refusal)
deriving DecidableEq, Repr

/-- One iteration of the batch loop (R161): go on with a new count and state, or stop. -/
inductive BatchStep where
  | more (spent : Nat) (s : State)
  | done (r : BatchResult)
deriving DecidableEq, Repr

/-- The cost of a step: what it added to `totalCycles` (R27, R150). -/
def stepCost (s t : State) : Nat := t.totalCycles - s.totalCycles

/-- The tests after a step, in R161's order: the breakpoint on the new PC, then the budget. -/
def afterStep (budget spent : Nat) (t : State) : BatchStep :=
  if t.pc ∈ t.breakpoints then .done (.stopped (.breakpoint t.pc) t)
  else if spent > budget then .done (.stopped .budgetExhausted t)
  else .more spent t

/-- One iteration (R161): the cancel test, the step, the tests after it. An invalid opcode halts the batch
and is reported (R501). -/
def batchIteration (budget spent : Nat) (s : State) : BatchStep :=
  if s.cancelRequested then .done (.stopped .cancelled { s with cancelRequested := false })
  else
    match step s with
    | .next t => afterStep budget (spent + stepCost s t) t
    | .fault (.invalidOpcode pc left) => .done (.stopped (.invalidOpcode pc) left)
    | .fault f => .done (.fault f)
    | .refused r => .done (.refused r)

/-- The loop, with fuel. -/
def batchLoop (budget : Nat) : Nat → Nat → State → BatchResult
  | 0, _, s => .stopped .budgetExhausted s
  | fuel + 1, spent, s =>
    match batchIteration budget spent s with
    | .done r => r
    | .more spent' s' => batchLoop budget fuel spent' s'

/-- `runBatch(budget)` (R161). A step costs at least one cycle, so the budget is exceeded within
`budget + 1` iterations and the fuel never runs out first. -/
def runBatch (budget : Nat) (s : State) : BatchResult := batchLoop budget (budget + 1) 0 s

/-! ### The disk -/

/-- The interleave a file extension selects (R430, D31). -/
def orderOfExtension (ext : String) : Option Interleave :=
  if ext = ".do" ∨ ext = ".dsk" then some .dos33
  else if ext = ".po" then some .prodos
  else none

/-- `attachDiskImage(file, writeProtect)` (R430); `none` is a missing file. -/
def attachDiskImage (file : Option (List Byte)) (ext : String) (writeProtect : Bool) (s : State) :
    Except IoError State :=
  match file with
  | none => .error .missingFile
  | some image =>
    if image.length ≠ imageBytes then .error .wrongLength
    else
      match orderOfExtension ext with
      | none => .error .unknownExtension
      | some order =>
        let img := { tracks := imageTracks s.cfg image order, writeProtect := writeProtect, order := order }
        .ok (s.setDev { s.dev with drive := { s.dev.drive with disk := some img, mediaPosition := 0 } })

end Sys2Proof.Machine
end

