-- ==== Sys2Proof/WellFormed.lean ====
section
/-! DEFINITION. What is well formed. Every operand value of a present opcode is legal (spec/30_encoding.md
R107) and the constructors of `Instr` carry operands of their exact width, so every instruction term is
well formed; the checks with something to refuse are those on a machine's parameters
(spec/00_scope.md R5) and on a row of the opcode table (R100, R103, R104). -/

namespace Sys2Proof

/-- The length of an instruction in the mode (R100). -/
def Mode.length : Mode → Nat
  | .imp | .acc => 1
  | .imm | .zp | .zpx | .zpy | .izx | .izy | .rel => 2
  | .abs | .absx | .absy | .ind => 3

/-- R107: every u8 and u16 operand is legal, and the operand fields of `Instr` hold exactly these. -/
def Instr.wf (_ : Instr) : Bool := true

/-- `DISK_SLOT` is 1 to 7 (R5, R76, R400). -/
def Config.slotOk (c : Config) : Bool := decide (1 ≤ c.diskSlot) && decide (c.diskSlot ≤ 7)

/-- `ROM_BASE` is 0x0000 to 0x10000 (R5). -/
def Config.romBaseOk (c : Config) : Bool := decide (c.romBase ≤ 0x10000)

/-- `DISK_ROM` is 256 bytes (R402), or not supplied. -/
def Config.diskRomOk (c : Config) : Bool := decide (c.diskRom.length = 0) || decide (c.diskRom.length = 256)

/-- The parameters are in the ranges R5 gives. -/
def Config.wf (c : Config) : Bool := c.slotOk && c.romBaseOk && c.diskRomOk

/-- The row's length is that of its mode (R100). -/
def Row.lengthOk (r : Row) : Bool := decide (r.desc.length = r.desc.mode.length)

/-- The row's format is that of its length (R100). -/
def Row.formOk (r : Row) : Bool :=
  match r.form with
  | .f1 _ => decide (r.desc.length = 1)
  | .f2 _ => decide (r.desc.length = 2)
  | .f3 _ => decide (r.desc.length = 3)

/-- `controls_pc` is true for exactly JMP, JSR, RTS, RTI and BRK (R104). -/
def Row.controlsPcOk (r : Row) : Bool :=
  r.desc.controlsPc == decide (r.desc.mnemonic ∈ [.jmp, .jsr, .rts, .rti, .brk])

/-- `page_penalty` is true for exactly the read-class rows in absx, absy and izy mode (R151). -/
def Row.pagePenaltyOk (r : Row) : Bool :=
  r.desc.pagePenalty ==
    (decide (r.desc.mode ∈ [.absx, .absy, .izy]) &&
      decide (r.desc.mnemonic ∈ [.lda, .ldx, .ldy, .adc, .sbc, .and, .ora, .eor, .cmp]))

/-- A row that agrees with R100, R104 and R151. -/
def Row.wf (r : Row) : Bool := r.lengthOk && r.formOk && r.controlsPcOk && r.pagePenaltyOk

end Sys2Proof
end

