-- ==== Sys2Proof/Safety.lean ====
section
/-! DEFINITION. What counts as a good state, in the terms claims use: the invariant that every step and
every host call keeps. -/

namespace Sys2Proof.Machine

/-- An image fits the drive (R35, R470): 35 tracks, each of the track length. -/
def DiskImage.wf (cfg : Config) (img : DiskImage) : Bool :=
  decide (img.tracks.length = numTracks) && img.tracks.all (fun t => decide (t.length = trackLen cfg))

/-- The drive's own ranges (R34, R35, R412): the head within 0 to HMAX, the media position within the
track, an attached image that fits. -/
def Drive.wf (cfg : Config) (d : Drive) : Bool :=
  decide (d.headPos ≤ headMax cfg) && decide (d.mediaPosition < trackLen cfg) &&
    (match d.disk with
      | none => true
      | some img => img.wf cfg)

/-- The breakpoint set is in its canonical form: strictly rising. -/
def breakpointsWf : List Word → Bool
  | [] => true
  | [_] => true
  | a :: b :: bs => decide (a.toNat < b.toNat) && breakpointsWf (b :: bs)

/-- A good state: parameters in range, memory, page table and peripheral states in canonical form, the
drive in its ranges, the breakpoint set in canonical form. -/
def State.wf (s : State) : Bool :=
  s.cfg.wf && Mem.wf s.mem &&
    (Sparse.wfFrom .readWrite 0 s.pageModes && Sparse.below 256 s.pageModes) &&
    Sparse.wfFrom 0 0 s.dev.extra && s.dev.drive.wf s.cfg && breakpointsWf s.breakpoints

/-- No read hook covers the address, and its page is not Unmapped: a read of it is a read of memory. -/
def State.plainRead (s : State) (a : Word) : Bool :=
  s.readHooks.all (fun h => !h.covers a) && decide (s.pageMode a ≠ .unmapped)

/-- No write hook covers the address, and its page is ReadWrite: a write to it is a write to memory. -/
def State.plainWrite (s : State) (a : Word) : Bool :=
  s.writeHooks.all (fun h => !h.covers a) && decide (s.pageMode a = .readWrite)

end Sys2Proof.Machine
end

