-- ==== Sys2Proof/Certificates/Slice0/Obligations.lean ====
section
/-! DEFINITION. The statements about the machine, each a numbered rule of spec/ or drawn from several. The
form lists are the "Encoding" lines of spec/40_load_store_transfer.md to spec/43_inc_dec_shift.md,
written out: instruction, opcode, operand, base cycles, page penalty. -/

namespace Sys2Proof.Machine

/-! ### Words the statements use -/

/-- The operand bytes of a memory operand, low byte first (R100, R101). -/
def MemMode.bytes : MemMode → List Byte
  | .zp b | .zpx b | .zpy b | .izx b | .izy b => [b]
  | .abs w | .absx w | .absy w => [loByte w, hiByte w]

/-- The operand bytes of a read-class operand. -/
def ReadOperand.bytes : ReadOperand → List Byte
  | .imm v => [v]
  | .mem m => m.bytes

/-- The operand bytes of a read-modify-write operand. -/
def RmwOperand.bytes : RmwOperand → List Byte
  | .acc => []
  | .mem m => m.bytes

/-- One form of a read-class instruction. -/
structure ReadForm where
  instr : Instr
  opcode : Byte
  operand : ReadOperand
  cycles : Nat
  penalty : Bool

/-- One form of a write-class instruction. -/
structure WriteForm where
  instr : Instr
  opcode : Byte
  operand : MemMode
  cycles : Nat

/-- One form of a read-modify-write instruction. -/
structure RmwForm where
  instr : Instr
  opcode : Byte
  operand : RmwOperand
  cycles : Nat

/-- A one-byte instruction with its whole effect but for PC and the cycle count. -/
structure PlainForm where
  instr : Instr
  opcode : Byte
  cycles : Nat
  effect : State → State

/-- A conditional branch with its condition. -/
structure BranchForm where
  instr : Byte → Instr
  opcode : Byte
  cond : Flags → Bool

/-- The forms of LDA (R200). -/
def ldaForms (b : Byte) (w : Word) : List ReadForm := [
  ⟨.ldaIzx b, 0xA1, .mem (.izx b), 6, false⟩,
  ⟨.ldaZp b, 0xA5, .mem (.zp b), 3, false⟩,
  ⟨.ldaImm b, 0xA9, .imm b, 2, false⟩,
  ⟨.ldaAbs w, 0xAD, .mem (.abs w), 4, false⟩,
  ⟨.ldaIzy b, 0xB1, .mem (.izy b), 5, true⟩,
  ⟨.ldaZpx b, 0xB5, .mem (.zpx b), 4, false⟩,
  ⟨.ldaAbsy w, 0xB9, .mem (.absy w), 4, true⟩,
  ⟨.ldaAbsx w, 0xBD, .mem (.absx w), 4, true⟩]

/-- The forms of LDX (R201). -/
def ldxForms (b : Byte) (w : Word) : List ReadForm := [
  ⟨.ldxImm b, 0xA2, .imm b, 2, false⟩,
  ⟨.ldxZp b, 0xA6, .mem (.zp b), 3, false⟩,
  ⟨.ldxAbs w, 0xAE, .mem (.abs w), 4, false⟩,
  ⟨.ldxZpy b, 0xB6, .mem (.zpy b), 4, false⟩,
  ⟨.ldxAbsy w, 0xBE, .mem (.absy w), 4, true⟩]

/-- The forms of LDY (R202). -/
def ldyForms (b : Byte) (w : Word) : List ReadForm := [
  ⟨.ldyImm b, 0xA0, .imm b, 2, false⟩,
  ⟨.ldyZp b, 0xA4, .mem (.zp b), 3, false⟩,
  ⟨.ldyAbs w, 0xAC, .mem (.abs w), 4, false⟩,
  ⟨.ldyZpx b, 0xB4, .mem (.zpx b), 4, false⟩,
  ⟨.ldyAbsx w, 0xBC, .mem (.absx w), 4, true⟩]

/-- The forms of ADC (R241). -/
def adcForms (b : Byte) (w : Word) : List ReadForm := [
  ⟨.adcIzx b, 0x61, .mem (.izx b), 6, false⟩,
  ⟨.adcZp b, 0x65, .mem (.zp b), 3, false⟩,
  ⟨.adcImm b, 0x69, .imm b, 2, false⟩,
  ⟨.adcAbs w, 0x6D, .mem (.abs w), 4, false⟩,
  ⟨.adcIzy b, 0x71, .mem (.izy b), 5, true⟩,
  ⟨.adcZpx b, 0x75, .mem (.zpx b), 4, false⟩,
  ⟨.adcAbsy w, 0x79, .mem (.absy w), 4, true⟩,
  ⟨.adcAbsx w, 0x7D, .mem (.absx w), 4, true⟩]

/-- The forms of SBC (R242). -/
def sbcForms (b : Byte) (w : Word) : List ReadForm := [
  ⟨.sbcIzx b, 0xE1, .mem (.izx b), 6, false⟩,
  ⟨.sbcZp b, 0xE5, .mem (.zp b), 3, false⟩,
  ⟨.sbcImm b, 0xE9, .imm b, 2, false⟩,
  ⟨.sbcAbs w, 0xED, .mem (.abs w), 4, false⟩,
  ⟨.sbcIzy b, 0xF1, .mem (.izy b), 5, true⟩,
  ⟨.sbcZpx b, 0xF5, .mem (.zpx b), 4, false⟩,
  ⟨.sbcAbsy w, 0xF9, .mem (.absy w), 4, true⟩,
  ⟨.sbcAbsx w, 0xFD, .mem (.absx w), 4, true⟩]

/-- The forms of AND (R243). -/
def andForms (b : Byte) (w : Word) : List ReadForm := [
  ⟨.andIzx b, 0x21, .mem (.izx b), 6, false⟩,
  ⟨.andZp b, 0x25, .mem (.zp b), 3, false⟩,
  ⟨.andImm b, 0x29, .imm b, 2, false⟩,
  ⟨.andAbs w, 0x2D, .mem (.abs w), 4, false⟩,
  ⟨.andIzy b, 0x31, .mem (.izy b), 5, true⟩,
  ⟨.andZpx b, 0x35, .mem (.zpx b), 4, false⟩,
  ⟨.andAbsy w, 0x39, .mem (.absy w), 4, true⟩,
  ⟨.andAbsx w, 0x3D, .mem (.absx w), 4, true⟩]

/-- The forms of ORA (R244). -/
def oraForms (b : Byte) (w : Word) : List ReadForm := [
  ⟨.oraIzx b, 0x01, .mem (.izx b), 6, false⟩,
  ⟨.oraZp b, 0x05, .mem (.zp b), 3, false⟩,
  ⟨.oraImm b, 0x09, .imm b, 2, false⟩,
  ⟨.oraAbs w, 0x0D, .mem (.abs w), 4, false⟩,
  ⟨.oraIzy b, 0x11, .mem (.izy b), 5, true⟩,
  ⟨.oraZpx b, 0x15, .mem (.zpx b), 4, false⟩,
  ⟨.oraAbsy w, 0x19, .mem (.absy w), 4, true⟩,
  ⟨.oraAbsx w, 0x1D, .mem (.absx w), 4, true⟩]

/-- The forms of EOR (R245). -/
def eorForms (b : Byte) (w : Word) : List ReadForm := [
  ⟨.eorIzx b, 0x41, .mem (.izx b), 6, false⟩,
  ⟨.eorZp b, 0x45, .mem (.zp b), 3, false⟩,
  ⟨.eorImm b, 0x49, .imm b, 2, false⟩,
  ⟨.eorAbs w, 0x4D, .mem (.abs w), 4, false⟩,
  ⟨.eorIzy b, 0x51, .mem (.izy b), 5, true⟩,
  ⟨.eorZpx b, 0x55, .mem (.zpx b), 4, false⟩,
  ⟨.eorAbsy w, 0x59, .mem (.absy w), 4, true⟩,
  ⟨.eorAbsx w, 0x5D, .mem (.absx w), 4, true⟩]

/-- The forms of BIT (R246). -/
def bitForms (b : Byte) (w : Word) : List ReadForm := [
  ⟨.bitZp b, 0x24, .mem (.zp b), 3, false⟩,
  ⟨.bitAbs w, 0x2C, .mem (.abs w), 4, false⟩]

/-- The forms of CMP (R247). -/
def cmpForms (b : Byte) (w : Word) : List ReadForm := [
  ⟨.cmpIzx b, 0xC1, .mem (.izx b), 6, false⟩,
  ⟨.cmpZp b, 0xC5, .mem (.zp b), 3, false⟩,
  ⟨.cmpImm b, 0xC9, .imm b, 2, false⟩,
  ⟨.cmpAbs w, 0xCD, .mem (.abs w), 4, false⟩,
  ⟨.cmpIzy b, 0xD1, .mem (.izy b), 5, true⟩,
  ⟨.cmpZpx b, 0xD5, .mem (.zpx b), 4, false⟩,
  ⟨.cmpAbsy w, 0xD9, .mem (.absy w), 4, true⟩,
  ⟨.cmpAbsx w, 0xDD, .mem (.absx w), 4, true⟩]

/-- The forms of CPX (R248). -/
def cpxForms (b : Byte) (w : Word) : List ReadForm := [
  ⟨.cpxImm b, 0xE0, .imm b, 2, false⟩,
  ⟨.cpxZp b, 0xE4, .mem (.zp b), 3, false⟩,
  ⟨.cpxAbs w, 0xEC, .mem (.abs w), 4, false⟩]

/-- The forms of CPY (R249). -/
def cpyForms (b : Byte) (w : Word) : List ReadForm := [
  ⟨.cpyImm b, 0xC0, .imm b, 2, false⟩,
  ⟨.cpyZp b, 0xC4, .mem (.zp b), 3, false⟩,
  ⟨.cpyAbs w, 0xCC, .mem (.abs w), 4, false⟩]

/-- The forms of STA (R203). -/
def staForms (b : Byte) (w : Word) : List WriteForm := [
  ⟨.staIzx b, 0x81, .izx b, 6⟩,
  ⟨.staZp b, 0x85, .zp b, 3⟩,
  ⟨.staAbs w, 0x8D, .abs w, 4⟩,
  ⟨.staIzy b, 0x91, .izy b, 6⟩,
  ⟨.staZpx b, 0x95, .zpx b, 4⟩,
  ⟨.staAbsy w, 0x99, .absy w, 5⟩,
  ⟨.staAbsx w, 0x9D, .absx w, 5⟩]

/-- The forms of STX (R204). -/
def stxForms (b : Byte) (w : Word) : List WriteForm := [
  ⟨.stxZp b, 0x86, .zp b, 3⟩,
  ⟨.stxAbs w, 0x8E, .abs w, 4⟩,
  ⟨.stxZpy b, 0x96, .zpy b, 4⟩]

/-- The forms of STY (R205). -/
def styForms (b : Byte) (w : Word) : List WriteForm := [
  ⟨.styZp b, 0x84, .zp b, 3⟩,
  ⟨.styAbs w, 0x8C, .abs w, 4⟩,
  ⟨.styZpx b, 0x94, .zpx b, 4⟩]

/-- The forms of INC (R270). -/
def incForms (b : Byte) (w : Word) : List RmwForm := [
  ⟨.incZp b, 0xE6, .mem (.zp b), 5⟩,
  ⟨.incAbs w, 0xEE, .mem (.abs w), 6⟩,
  ⟨.incZpx b, 0xF6, .mem (.zpx b), 6⟩,
  ⟨.incAbsx w, 0xFE, .mem (.absx w), 7⟩]

/-- The forms of DEC (R271). -/
def decForms (b : Byte) (w : Word) : List RmwForm := [
  ⟨.decZp b, 0xC6, .mem (.zp b), 5⟩,
  ⟨.decAbs w, 0xCE, .mem (.abs w), 6⟩,
  ⟨.decZpx b, 0xD6, .mem (.zpx b), 6⟩,
  ⟨.decAbsx w, 0xDE, .mem (.absx w), 7⟩]

/-- The forms of ASL (R276). -/
def aslForms (b : Byte) (w : Word) : List RmwForm := [
  ⟨.aslZp b, 0x06, .mem (.zp b), 5⟩,
  ⟨.aslAcc, 0x0A, .acc, 2⟩,
  ⟨.aslAbs w, 0x0E, .mem (.abs w), 6⟩,
  ⟨.aslZpx b, 0x16, .mem (.zpx b), 6⟩,
  ⟨.aslAbsx w, 0x1E, .mem (.absx w), 7⟩]

/-- The forms of LSR (R277). -/
def lsrForms (b : Byte) (w : Word) : List RmwForm := [
  ⟨.lsrZp b, 0x46, .mem (.zp b), 5⟩,
  ⟨.lsrAcc, 0x4A, .acc, 2⟩,
  ⟨.lsrAbs w, 0x4E, .mem (.abs w), 6⟩,
  ⟨.lsrZpx b, 0x56, .mem (.zpx b), 6⟩,
  ⟨.lsrAbsx w, 0x5E, .mem (.absx w), 7⟩]

/-- The forms of ROL (R278). -/
def rolForms (b : Byte) (w : Word) : List RmwForm := [
  ⟨.rolZp b, 0x26, .mem (.zp b), 5⟩,
  ⟨.rolAcc, 0x2A, .acc, 2⟩,
  ⟨.rolAbs w, 0x2E, .mem (.abs w), 6⟩,
  ⟨.rolZpx b, 0x36, .mem (.zpx b), 6⟩,
  ⟨.rolAbsx w, 0x3E, .mem (.absx w), 7⟩]

/-- The forms of ROR (R279). -/
def rorForms (b : Byte) (w : Word) : List RmwForm := [
  ⟨.rorZp b, 0x66, .mem (.zp b), 5⟩,
  ⟨.rorAcc, 0x6A, .acc, 2⟩,
  ⟨.rorAbs w, 0x6E, .mem (.abs w), 6⟩,
  ⟨.rorZpx b, 0x76, .mem (.zpx b), 6⟩,
  ⟨.rorAbsx w, 0x7E, .mem (.absx w), 7⟩]

/-- The state at the end of an instruction of `len` bytes that costs `cost` cycles, begun in `s`: `u` with
PC and the cycle count advanced (R122, R150). -/
def advanced (s : State) (len cost : Nat) (u : State) : State :=
  { u with pc := s.pc + BitVec.ofNat 16 len, totalCycles := s.totalCycles + cost }

/-- The flags with Z and N from a byte (R143). -/
def withNZ (v : Byte) (p : Flags) : Flags := { p with n := decide (v.toNat ≥ 128), z := decide (v.toNat = 0) }

/-- Every form is encoded as listed, and whenever its operand can be read the instruction answers a next
state: `effect` of the operand byte on the state after the read, with PC and the cycles advanced. -/
def ReadsInto (forms : Byte → Word → List ReadForm) (effect : Byte → State → State) : Prop :=
  ∀ b w, ∀ f ∈ forms b w, encode f.instr = f.opcode :: f.operand.bytes ∧
    ∀ s m crossed u, readOperand f.operand s = .ok ((m, crossed), u) →
      exec f.instr s = .next (advanced s (encode f.instr).length
        (f.cycles + (if f.penalty && crossed then 1 else 0)) (effect m u))

/-- Every form is encoded as listed, and whenever its address can be found the instruction answers a next
state: the byte `val` written at that address, with PC and the cycles advanced. -/
def WritesFrom (forms : Byte → Word → List WriteForm) (val : State → Byte) : Prop :=
  ∀ b w, ∀ f ∈ forms b w, encode f.instr = f.opcode :: f.operand.bytes ∧
    ∀ s ea crossed u, effAddr f.operand s = .ok ((ea, crossed), u) →
      exec f.instr s = .next (advanced s (encode f.instr).length f.cycles (writeByte ea (val s) u))

/-- Every form is encoded as listed and answers a next state: in accumulator mode always, in a memory mode
whenever the byte can be read. `f` gives the new byte and the flags from the old byte and the flags. -/
def RmwApplies (forms : Byte → Word → List RmwForm) (f : Byte → Flags → Byte × Flags) : Prop :=
  ∀ b w, ∀ k ∈ forms b w, encode k.instr = k.opcode :: k.operand.bytes ∧
    match k.operand with
    | .acc => ∀ s, exec k.instr s = .next (advanced s 1 k.cycles
        { s with a := (f s.a s.p).1, p := (f s.a s.p).2 })
    | .mem m => ∀ s ea crossed u v u', effAddr m s = .ok ((ea, crossed), u) → readByte ea u = .ok (v, u') →
        exec k.instr s = .next (advanced s (encode k.instr).length k.cycles
          { (writeByte ea (f v s.p).1 u') with p := (f v s.p).2 })

/-- Every form is one byte long, encoded as listed, and always answers the next state its effect gives. -/
def Runs (forms : List PlainForm) : Prop :=
  ∀ f ∈ forms, encode f.instr = [f.opcode] ∧
    ∀ s, exec f.instr s = .next (advanced s 1 f.cycles (f.effect s))

/-- The 105 absent opcode bytes, as R106 lists them. -/
def absentOpcodes : List Byte := [
  0x02, 0x03, 0x04, 0x07, 0x0B, 0x0C, 0x0F, 0x12, 0x13, 0x14, 0x17, 0x1A, 0x1B, 0x1C, 0x1F,
  0x22, 0x23, 0x27, 0x2B, 0x2F, 0x32, 0x33, 0x34, 0x37, 0x3A, 0x3B, 0x3C, 0x3F, 0x42, 0x43,
  0x44, 0x47, 0x4B, 0x4F, 0x52, 0x53, 0x54, 0x57, 0x5A, 0x5B, 0x5C, 0x5F, 0x62, 0x63, 0x64,
  0x67, 0x6B, 0x6F, 0x72, 0x73, 0x74, 0x77, 0x7A, 0x7B, 0x7C, 0x7F, 0x80, 0x82, 0x83, 0x87,
  0x89, 0x8B, 0x8F, 0x92, 0x93, 0x97, 0x9B, 0x9C, 0x9E, 0x9F, 0xA3, 0xA7, 0xAB, 0xAF, 0xB2,
  0xB3, 0xB7, 0xBB, 0xBF, 0xC2, 0xC3, 0xC7, 0xCB, 0xCF, 0xD2, 0xD3, 0xD4, 0xD7, 0xDA, 0xDB,
  0xDC, 0xDF, 0xE2, 0xE3, 0xE7, 0xEB, 0xEF, 0xF2, 0xF3, 0xF4, 0xF7, 0xFA, 0xFB, 0xFC, 0xFF]

/-- The result of a decimal ADC, written as R241 writes it: the corrected low digit, the corrected high
digit. -/
def decimalAddDigits (a m : Nat) (c : Nat) : Nat × Nat :=
  let lo := (a &&& 0x0F) + (m &&& 0x0F) + c
  let lo := if lo > 9 then lo + 6 else lo
  let hi := (a >>> 4) + (m >>> 4) + (if lo > 15 then 1 else 0)
  let hi := if hi > 9 then hi + 6 else hi
  (lo, hi)

/-- The result of a decimal SBC, written as R242 writes it, on signed integers. -/
def decimalSubDigits (a m : Nat) (c : Nat) : Int × Int :=
  let lo : Int := (a % 16 : Nat) - (m % 16 : Nat) - (1 - (c : Int))
  let hi : Int := (a / 16 : Nat) - (m / 16 : Nat)
  let (lo, hi) := if lo < 0 then (lo - 6, hi - 1) else (lo, hi)
  let hi := if hi < 0 then hi - 6 else hi
  (lo, hi)

/-- The signed overflow of R240. -/
def overflows (r a m : Byte) : Bool := ((r ^^^ a) &&& (r ^^^ m) &&& 0x80) != 0

/-- The result byte, carry and overflow of ADC by R241, in the mode the D flag selects. -/
def adcBySpec (a m : Byte) (c d : Bool) : Byte × Bool × Bool :=
  let sum := a.toNat + m.toNat + c.toNat
  let (lo, hi) := decimalAddDigits a.toNat m.toNat c.toNat
  if d then (BitVec.ofNat 8 ((hi <<< 4) ||| (lo &&& 0x0F)), decide (hi > 15), overflows (BitVec.ofNat 8 sum) a m)
  else (BitVec.ofNat 8 sum, decide (sum > 255), overflows (BitVec.ofNat 8 sum) a m)

/-- The result byte, carry and overflow of SBC by R242, in the mode the D flag selects. -/
def sbcBySpec (a m : Byte) (c d : Bool) : Byte × Bool × Bool :=
  let nm := ~~~m
  let sum := a.toNat + nm.toNat + c.toNat
  let (lo, hi) := decimalSubDigits a.toNat m.toNat c.toNat
  if d then ((BitVec.ofInt 8 hi <<< 4) ||| (BitVec.ofInt 8 lo &&& 0x0F), decide (sum > 255),
    overflows (BitVec.ofNat 8 sum) a nm)
  else (BitVec.ofNat 8 sum, decide (sum > 255), overflows (BitVec.ofNat 8 sum) a nm)

/-- The state after an arithmetic result with N and Z by `setNZ` (`DECIMAL_NVZ = Exact`, or binary mode). -/
def arithExact (res : Byte × Bool × Bool) (u : State) : State :=
  { u with a := res.1, p := { withNZ res.1 u.p with c := res.2.1, v := res.2.2 } }

/-- The state after an arithmetic result with N, V and Z drawn (`DECIMAL_NVZ = Draw`, R250): A and C as
computed; `k` is the model's own count of draws. -/
def arithDrawn (res : Byte × Bool × Bool) (n v z : Bool) (k : Nat) (u : State) : State :=
  { u with a := res.1, p := { u.p with n := n, v := v, z := z, c := res.2.1 }, draws := k }

/-- A flag by name. -/
inductive FlagName where
  | n | v | b | d | i | z | c
deriving DecidableEq, Repr

/-- The flag's value. -/
def Flags.value (p : Flags) : FlagName → Bool
  | .n => p.n
  | .v => p.v
  | .b => p.b
  | .d => p.d
  | .i => p.i
  | .z => p.z
  | .c => p.c

/-- The "NZ" writers of R26. -/
def nzWriters : List Mnemonic :=
  [.lda, .ldx, .ldy, .tax, .tay, .txa, .tya, .tsx, .pla, .and, .ora, .eor, .adc, .sbc, .cmp, .cpx, .cpy,
    .inc, .dec, .inx, .iny, .dex, .dey, .asl, .lsr, .rol, .ror]

/-- The instructions that write a flag, as the table of R26 lists them. -/
def flagWriters : FlagName → List Mnemonic
  | .n => nzWriters ++ [.bit, .plp, .rti]
  | .v => [.adc, .sbc, .bit, .clv, .plp, .rti]
  | .b => [.brk, .plp, .rti]
  | .d => [.sed, .cld, .plp, .rti]
  | .i => [.sei, .cli, .brk, .plp, .rti]
  | .z => nzWriters ++ [.bit, .plp, .rti]
  | .c => [.adc, .sbc, .cmp, .cpx, .cpy, .asl, .lsr, .rol, .ror, .clc, .sec, .plp, .rti]

/-- The instructions that write A: the loads, transfers, pulls, arithmetic and logic into A, and the shifts
in accumulator mode. -/
def writesA (d : Descriptor) : Bool :=
  decide (d.mnemonic ∈ [.lda, .txa, .tya, .pla, .adc, .sbc, .and, .ora, .eor]) ||
    (decide (d.mnemonic ∈ [.asl, .lsr, .rol, .ror]) && decide (d.mode = .acc))

/-- The instructions that write X. -/
def writesX (d : Descriptor) : Bool := decide (d.mnemonic ∈ [.ldx, .tax, .tsx, .inx, .dex])

/-- The instructions that write Y. -/
def writesY (d : Descriptor) : Bool := decide (d.mnemonic ∈ [.ldy, .tay, .iny, .dey])

/-- The instructions that write SP: TXS and every push and pull (R21). -/
def writesSp (d : Descriptor) : Bool :=
  decide (d.mnemonic ∈ [.txs, .pha, .php, .pla, .plp, .jsr, .rts, .rti, .brk])

/-- The instructions that write memory: stores, read-modify-writes of memory, and pushes (R134). -/
def writesMem (d : Descriptor) : Bool :=
  decide (d.mnemonic ∈ [.sta, .stx, .sty, .pha, .php, .jsr, .brk]) ||
    (decide (d.mnemonic ∈ [.inc, .dec, .asl, .lsr, .rol, .ror]) && decide (d.mode ≠ .acc))

/-- The hooks that cover an address run in order, their results discarded. -/
def runObservers (cfg : Config) (a : Word) (v : Option Byte) (hs : List Hook) (d : Devices) : Devices :=
  hs.foldl (fun d h => if h.covers a then (runCallback cfg h.callback a v d).2 else d) d

/-- Every hook of the list that covers the address observes and continues. -/
def OnlyObserve (hs : List Hook) (a : Word) : Prop := ∀ h ∈ hs, h.covers a = true → h.bypass = true

/-- What a read with no consuming hook gives (R66). -/
def readByMode (m : PageMode) (stored : Byte) : Byte :=
  match m with
  | .readWrite => stored
  | .readOnly => stored
  | .unmapped => 0x00

/-- The bytes a run of `k` reads of one strobe address gives, and the state after. -/
def readsInARow (a : Word) : Nat → State → Except Fault (List Byte × State)
  | 0, s => .ok ([], s)
  | k + 1, s => do
    let (v, s1) ← readByte a s
    let (vs, s2) ← readsInARow a k s1
    .ok (v :: vs, s2)

/-- The drive after a list of phase switches, each a phase and on or off. -/
def afterPhases (cfg : Config) : List (Fin 4 × Bool) → Drive → Drive
  | [], d => d
  | (q, on) :: qs, d => afterPhases cfg qs (setPhase cfg q on d)

/-- The slot windows hold the controller's hooks, first in each list (R401, R78). -/
def State.hasDisk (s : State) : Prop :=
  (∃ r, s.readHooks = diskReadHooks s.cfg ++ r) ∧ (∃ w, s.writeHooks = diskWriteHooks s.cfg ++ w)

end Sys2Proof.Machine

open Sys2Proof Sys2Proof.Machine

/-! ### Encoding -/

/-- R100, R101, R105: decoding an encoded instruction gives it back, with the bytes that follow, for every
instruction and every operand value. -/
def Obligations.DecodeInvertsEncode : Prop :=
  ∀ (i : Instr) (rest : List Byte), decode (encode i ++ rest) = .instr i rest

/-- R107: a present opcode has exactly one meaning: bytes that decode to an instruction are that
instruction's encoding. -/
def Obligations.EncodeInvertsDecode : Prop :=
  ∀ (bs rest : List Byte) (i : Instr), decode bs = .instr i rest → bs = encode i ++ rest

/-- R106, R500: the 105 absent bytes, and only they, decode to no instruction; with no IRQ pending, a step
that fetches one stops with `InvalidOpcode(pc0)`, in the state the opcode fetch left. -/
def Obligations.AbsentOpcodesAreInvalid : Prop :=
  (∀ (op : Byte) (rest : List Byte), decode (op :: rest) = .absent op ↔ op ∈ absentOpcodes) ∧
  ∀ (s u : State) (op : Byte), irqPending s = false → op ∈ absentOpcodes → readByte s.pc s = .ok (op, u) →
    step s = .fault (.invalidOpcode s.pc u) ∧ ∃ d, u = { s with dev := d }

/-- R105: words written out from the opcode map decode to the instructions they stand for. -/
def Obligations.SpecWordsDecode : Prop :=
  decode [0xA9, 0x41] = .instr (.ldaImm 0x41) [] ∧
  decode [0x8D, 0x34, 0x12] = .instr (.staAbs 0x1234) [] ∧
  decode [0xAA] = .instr .tax [] ∧
  decode [0x08] = .instr .php [] ∧
  decode [0x71, 0x20] = .instr (.adcIzy 0x20) [] ∧
  decode [0x41, 0x20] = .instr (.eorIzx 0x20) [] ∧
  decode [0xD9, 0xFF, 0x10] = .instr (.cmpAbsy 0x10FF) [] ∧
  decode [0xF6, 0x20] = .instr (.incZpx 0x20) [] ∧
  decode [0x6A] = .instr .rorAcc [] ∧
  decode [0x6C, 0x34, 0x12] = .instr (.jmpInd 0x1234) [] ∧
  decode [0xD0, 0xFE] = .instr (.bne 0xFE) [] ∧
  decode [0xF8] = .instr .sed []

/-- R103, R104: 151 rows with distinct opcodes; `controls_pc` is true for exactly JMP, JSR, RTS, RTI and
BRK; every instruction has a row. -/
def Obligations.OpcodeTableRows : Prop :=
  opcodeTable.length = 151 ∧ (opcodeTable.map (·.opcode)).Nodup ∧
  ∀ i : Instr, ∃ d, i.descriptor = some d ∧
    (d.controlsPc = true ↔ d.mnemonic ∈ [Mnemonic.jmp, .jsr, .rts, .rti, .brk])

/-! ### The step -/

/-- R120, R121: with no IRQ pending a step fetches an instruction and executes it, PC still at its opcode
byte. The fetch reads the opcode byte through the hooks, then operand byte 1, then operand byte 2, each in the
state the one before left, and only the bytes the length covers; an absent opcode, its opcode byte alone. Where
the bytes at PC decode to an instruction and no read hook covers them, the fetch gives that instruction and
leaves the state as it was. -/
def Obligations.StepRunsDecodedInstruction : Prop :=
  (∀ (s u : State) (i : Instr), irqPending s = false → fetch s = .ok (i, u) → step s = exec i u ∧ u.pc = s.pc) ∧
  (∀ (s s1 : State) (op : Byte), readByte s.pc s = .ok (op, s1) →
    (op ∈ absentOpcodes → fetch s = .error (.invalidOpcode s.pc s1)) ∧
    (∀ i, decode [op] = .instr i [] → fetch s = .ok (i, s1)) ∧
    (∀ b1 s2, readByte (s.pc + 1) s1 = .ok (b1, s2) →
      (∀ i, decode [op, b1] = .instr i [] → fetch s = .ok (i, s2)) ∧
      (∀ b2 s3, readByte (s.pc + 2) s2 = .ok (b2, s3) →
        ∀ i, decode [op, b1, b2] = .instr i [] → fetch s = .ok (i, s3)))) ∧
  (∀ (s : State) (i : Instr) (rest : List Byte),
    decode [Mem.read s.mem s.pc, Mem.read s.mem (s.pc + 1), Mem.read s.mem (s.pc + 2)] = .instr i rest →
    (∀ k, k < (encode i).length → s.plainRead (s.pc + BitVec.ofNat 16 k) = true) →
    fetch s = .ok (i, s))

/-- R505, R506: without the IRQ input, whatever the line and the I flag, a step is the fetched instruction;
with it, the line high and I clear, a step pushes PC, high byte first, then the status with bit 4 = 0, sets
I, and goes to the word at 0xFFFE. (That the 7 cycles it returns are added to the count is the model's
reading: assumption log 5.) -/
def Obligations.IrqEntryTakesVector : Prop :=
  (∀ (s u : State) (i : Instr), s.cfg.hasIrqInput = false → fetch s = .ok (i, u) → step s = exec i u) ∧
  (∀ (s u : State) (target : Word), s.cfg.hasIrqInput = true → s.irqLine = true → s.p.i = false →
    (let s1 := push (s.p.serialize true &&& 0xEF) (push (loByte s.pc) (push (hiByte s.pc) s))
     read16 0xFFFE { s1 with p := { s1.p with i := true } } = .ok (target, u)) →
    step s = .next { u with pc := target, totalCycles := s.totalCycles + 7 })

/-- R8, R62, R63, R504: a read that the bus faults stops what makes it, with that fault: a fetch of the opcode
byte or of an operand byte; each pointer read and the operand read of an instruction with an operand; each pull
of PLA, PLP, RTS and RTI; each pointer read of an indirect jump; each vector read of BRK and of an IRQ entry.
These are all the reads of R134 and R506. -/
def Obligations.BusFaultStopsInstruction : Prop :=
  (∀ s e, irqPending s = false →
    (fetch s = .error e → step s = .fault e) ∧
    (readByte s.pc s = .error e → step s = .fault e) ∧
    (∀ op s1, readByte s.pc s = .ok (op, s1) →
      (decode [op] = .truncated → readByte (s.pc + 1) s1 = .error e → step s = .fault e) ∧
      (∀ b1 s2, readByte (s.pc + 1) s1 = .ok (b1, s2) → decode [op, b1] = .truncated →
        readByte (s.pc + 2) s2 = .error e → step s = .fault e))) ∧
  (∀ (b : Byte) (s : State) (e : Fault),
    (let p := (b.toNat + s.x.toNat) % 256
     (readByte (BitVec.ofNat 16 p) s = .error e → effAddr (.izx b) s = .error e) ∧
     (∀ lo s1, readByte (BitVec.ofNat 16 p) s = .ok (lo, s1) →
       readByte (BitVec.ofNat 16 ((p + 1) % 256)) s1 = .error e → effAddr (.izx b) s = .error e)) ∧
    (readByte (BitVec.ofNat 16 b.toNat) s = .error e → effAddr (.izy b) s = .error e) ∧
    (∀ lo s1, readByte (BitVec.ofNat 16 b.toNat) s = .ok (lo, s1) →
      readByte (BitVec.ofNat 16 ((b.toNat + 1) % 256)) s1 = .error e → effAddr (.izy b) s = .error e)) ∧
  (∀ m s e, (effAddr m s = .error e → readOperand (.mem m) s = .error e) ∧
    (∀ ea crossed u, effAddr m s = .ok ((ea, crossed), u) → readByte ea u = .error e →
      readOperand (.mem m) s = .error e)) ∧
  (∀ b w, ∀ f ∈ ldaForms b w ++ ldxForms b w ++ ldyForms b w ++ adcForms b w ++ sbcForms b w ++ andForms b w ++
      oraForms b w ++ eorForms b w ++ bitForms b w ++ cmpForms b w ++ cpxForms b w ++ cpyForms b w,
    ∀ s e, readOperand f.operand s = .error e → exec f.instr s = .fault e) ∧
  (∀ b w, ∀ f ∈ staForms b w ++ stxForms b w ++ styForms b w, ∀ s e,
    effAddr f.operand s = .error e → exec f.instr s = .fault e) ∧
  (∀ b w, ∀ f ∈ incForms b w ++ decForms b w ++ aslForms b w ++ lsrForms b w ++ rolForms b w ++ rorForms b w,
    ∀ m s e, f.operand = .mem m →
      (effAddr m s = .error e ∨ ∃ ea crossed u, effAddr m s = .ok ((ea, crossed), u) ∧ readByte ea u = .error e) →
      exec f.instr s = .fault e) ∧
  (∀ s e, pull s = .error e →
    exec .pla s = .fault e ∧ exec .plp s = .fault e ∧ exec .rts s = .fault e ∧ exec .rti s = .fault e) ∧
  (∀ s lo s1 e, pull s = .ok (lo, s1) → pull s1 = .error e → exec .rts s = .fault e) ∧
  (∀ s p s1 e, pull s = .ok (p, s1) →
    (let q : Flags :=
       { n := p.getLsbD 7, v := p.getLsbD 6, b := false, d := p.getLsbD 3, i := p.getLsbD 2,
         z := p.getLsbD 1, c := p.getLsbD 0 }
     (pull { s1 with p := q } = .error e → exec .rti s = .fault e) ∧
     (∀ lo s2, pull { s1 with p := q } = .ok (lo, s2) → pull s2 = .error e → exec .rti s = .fault e))) ∧
  (∀ w s e, (readByte w s = .error e → exec (.jmpInd w) s = .fault e) ∧
    (∀ lo s1, readByte w s = .ok (lo, s1) →
      readByte (if s.cfg.jmpIndWrap then (w &&& 0xFF00) ||| ((w + 1) &&& 0x00FF) else w + 1) s1 = .error e →
      exec (.jmpInd w) s = .fault e)) ∧
  (∀ s e,
    (let s1 := push (s.p.serialize true) (push (loByte (s.pc + 2)) (push (hiByte (s.pc + 2)) s))
     let s2 := { s1 with p := { s.p with b := true, i := true } }
     (readByte 0xFFFE s2 = .error e → exec .brk s = .fault e) ∧
     (∀ lo s3, readByte 0xFFFE s2 = .ok (lo, s3) → readByte 0xFFFF s3 = .error e → exec .brk s = .fault e))) ∧
  (∀ s e, s.cfg.hasIrqInput = true → s.irqLine = true → s.p.i = false →
    (let s1 := push (s.p.serialize true &&& 0xEF) (push (loByte s.pc) (push (hiByte s.pc) s))
     let s2 := { s1 with p := { s.p with i := true } }
     (readByte 0xFFFE s2 = .error e → step s = .fault e) ∧
     (∀ lo s3, readByte 0xFFFE s2 = .ok (lo, s3) → readByte 0xFFFF s3 = .error e → step s = .fault e)))

/-! ### The bus -/

/-- R62, R63: the covering hooks before the first consuming one run and are discarded; the consuming one
decides, or faults if it has no value; with none, Unmapped pages read 0x00 and others the array. A host
read that bypasses the hooks is the last of these and runs none. -/
def Obligations.ReadHooksDecideInOrder : Prop :=
  (∀ (s : State) (a : Word) (pre post : List Hook) (h : Hook), s.readHooks = pre ++ h :: post →
    OnlyObserve pre a → h.covers a = true → h.bypass = false →
    (let d := runObservers s.cfg a none pre s.dev
     let r := runCallback s.cfg h.callback a none d
     readByte a s = match r.1 with
       | some v => .ok (v, { s with dev := r.2 })
       | none => .error (.readHookNoValue a))) ∧
  (∀ (s : State) (a : Word), OnlyObserve s.readHooks a →
    readByte a s = .ok (readByMode (s.pageMode a) (Mem.read s.mem a),
      { s with dev := runObservers s.cfg a none s.readHooks s.dev })) ∧
  (∀ (s : State) (a : Word),
    hostRead a false s = readByte a s ∧ hostRead a true s = .ok (readByMode (s.pageMode a) (Mem.read s.mem a), s))

/-- R64: a write runs the covering hooks up to the first consuming one, which takes it; with none, only a
ReadWrite page stores it. A host write that bypasses the hooks is the last of these and runs none. -/
def Obligations.WriteHooksDecideInOrder : Prop :=
  (∀ (s : State) (a : Word) (v : Byte) (pre post : List Hook) (h : Hook), s.writeHooks = pre ++ h :: post →
    OnlyObserve pre a → h.covers a = true → h.bypass = false →
    writeByte a v s = { s with
      dev := (runCallback s.cfg h.callback a (some v) (runObservers s.cfg a (some v) pre s.dev)).2 }) ∧
  (∀ (s : State) (a : Word) (v : Byte), OnlyObserve s.writeHooks a →
    writeByte a v s = { s with
      dev := runObservers s.cfg a (some v) s.writeHooks s.dev
      mem := if s.pageMode a = .readWrite then Mem.write s.mem a v else s.mem }) ∧
  (∀ (s : State) (a : Word) (v : Byte), hostWrite a v false s = writeByte a v s ∧
    hostWrite a v true s =
      { s with mem := if s.pageMode a = .readWrite then Mem.write s.mem a v else s.mem })

/-- R80, R66: on a ReadWrite page no hook covers, a byte written is read back, every other byte is as it
was, and nothing but memory changes. (Memory in the model's canonical form: assumption log 15.) -/
def Obligations.ReadAfterWriteIsCoherent : Prop :=
  ∀ (s : State) (a : Word) (v : Byte), Mem.wf s.mem = true → s.plainRead a = true → s.plainWrite a = true →
    readByte a (writeByte a v s) = .ok (v, writeByte a v s) ∧
    (∀ b, b ≠ a → Mem.read (writeByte a v s).mem b = Mem.read s.mem b) ∧
    writeByte a v s = { s with mem := (writeByte a v s).mem }

/-! ### Addressing and the stack -/

/-- R126 to R131, R134: the effective address of every memory mode, as arithmetic modulo 256 and 65536, with
the pointers of the indirect modes read through the bus, low byte first; and the operand of a read-class
instruction is the immediate byte, or one bus read of the effective address. -/
def Obligations.AddressingModesResolve : Prop :=
  ∀ (s : State) (b : Byte) (w : Word),
    effAddr (.zp b) s = .ok ((BitVec.ofNat 16 b.toNat, false), s) ∧
    effAddr (.zpx b) s = .ok ((BitVec.ofNat 16 ((b.toNat + s.x.toNat) % 256), false), s) ∧
    effAddr (.zpy b) s = .ok ((BitVec.ofNat 16 ((b.toNat + s.y.toNat) % 256), false), s) ∧
    effAddr (.abs w) s = .ok ((w, false), s) ∧
    (let ea := (w.toNat + s.x.toNat) % 65536
     effAddr (.absx w) s = .ok ((BitVec.ofNat 16 ea, decide (w.toNat / 256 ≠ ea / 256)), s)) ∧
    (let ea := (w.toNat + s.y.toNat) % 65536
     effAddr (.absy w) s = .ok ((BitVec.ofNat 16 ea, decide (w.toNat / 256 ≠ ea / 256)), s)) ∧
    (∀ (lo hi : Byte) (s1 s2 : State),
      (let p := (b.toNat + s.x.toNat) % 256
       readByte (BitVec.ofNat 16 p) s = .ok (lo, s1) → readByte (BitVec.ofNat 16 ((p + 1) % 256)) s1 = .ok (hi, s2) →
       effAddr (.izx b) s = .ok ((BitVec.ofNat 16 (hi.toNat * 256 + lo.toNat), false), s2))) ∧
    (∀ (lo hi : Byte) (s1 s2 : State),
      readByte (BitVec.ofNat 16 b.toNat) s = .ok (lo, s1) →
      readByte (BitVec.ofNat 16 ((b.toNat + 1) % 256)) s1 = .ok (hi, s2) →
      (let base := hi.toNat * 256 + lo.toNat
       let ea := (base + s.y.toNat) % 65536
       effAddr (.izy b) s = .ok ((BitVec.ofNat 16 ea, decide (base / 256 ≠ ea / 256)), s2))) ∧
    readOperand (.imm b) s = .ok ((b, false), s) ∧
    (∀ (m : MemMode) (ea : Word) (crossed : Bool) (v : Byte) (s1 s2 : State),
      effAddr m s = .ok ((ea, crossed), s1) → readByte ea s1 = .ok (v, s2) →
      readOperand (.mem m) s = .ok ((v, crossed), s2))

/-- R140, R141, R142: a push writes at 0x0100 + SP and then decrements SP; a pull increments SP and then
reads there; 16-bit pushes go high byte first and pulls low byte first. -/
def Obligations.StackOperations : Prop :=
  (∀ (s : State) (v : Byte),
    push v s = { (writeByte (BitVec.ofNat 16 (0x0100 + s.sp.toNat)) v s) with
      sp := BitVec.ofNat 8 (s.sp.toNat + 255) }) ∧
  (∀ (s : State),
    pull s = readByte (BitVec.ofNat 16 (0x0100 + (s.sp.toNat + 1) % 256))
      { s with sp := BitVec.ofNat 8 (s.sp.toNat + 1) }) ∧
  (∀ (s : State) (w : Word), push16 w s = push (loByte w) (push (hiByte w) s)) ∧
  (∀ (s s1 s2 : State) (lo hi : Byte), pull s = .ok (lo, s1) → pull s1 = .ok (hi, s2) →
    pull16 s = .ok (BitVec.ofNat 16 (hi.toNat * 256 + lo.toNat), s2))

/-! ### Loads, stores, transfers, stack instructions -/

/-- R200, R201, R202: LDA, LDX and LDY put the operand byte in their register and set Z and N from it. -/
def Obligations.LoadsSetRegister : Prop :=
  ReadsInto ldaForms (fun m u => { u with a := m, p := withNZ m u.p }) ∧
  ReadsInto ldxForms (fun m u => { u with x := m, p := withNZ m u.p }) ∧
  ReadsInto ldyForms (fun m u => { u with y := m, p := withNZ m u.p })

/-- R203, R204, R205: STA, STX and STY write their register at the effective address, with no page-cross
cycle and no flag. -/
def Obligations.StoresWriteRegister : Prop :=
  WritesFrom staForms (·.a) ∧ WritesFrom stxForms (·.x) ∧ WritesFrom styForms (·.y)

/-- R206 to R211: the transfers copy a register and set Z and N, but for TXS, which sets no flag. -/
def Obligations.TransfersCopyRegister : Prop :=
  Runs [
    ⟨.tax, 0xAA, 2, fun s => { s with x := s.a, p := withNZ s.a s.p }⟩,
    ⟨.tay, 0xA8, 2, fun s => { s with y := s.a, p := withNZ s.a s.p }⟩,
    ⟨.txa, 0x8A, 2, fun s => { s with a := s.x, p := withNZ s.x s.p }⟩,
    ⟨.tya, 0x98, 2, fun s => { s with a := s.y, p := withNZ s.y s.p }⟩,
    ⟨.tsx, 0xBA, 2, fun s => { s with x := s.sp, p := withNZ s.sp s.p }⟩,
    ⟨.txs, 0x9A, 2, fun s => { s with sp := s.x }⟩]

/-- R220, R221: PHA pushes A; PHP pushes the status byte N V 1 1 D I Z C; no flag changes. -/
def Obligations.PushInstructionsStore : Prop :=
  Runs [
    ⟨.pha, 0x48, 3, fun s => push s.a s⟩,
    ⟨.php, 0x08, 3, fun s => push (BitVec.ofNat 8 (s.p.n.toNat * 128 + s.p.v.toNat * 64 + 32 + 16 +
      s.p.d.toNat * 8 + s.p.i.toNat * 4 + s.p.z.toNat * 2 + s.p.c.toNat)) s⟩]

/-- R222, R223: PLA pulls A and sets Z and N; PLP pulls the flags, clears B and ignores bits 5 and 4. -/
def Obligations.PullInstructionsLoad : Prop :=
  encode .pla = [0x68] ∧ encode .plp = [0x28] ∧
  ∀ (s u : State) (v : Byte), pull s = .ok (v, u) →
    exec .pla s = .next (advanced s 1 4 { u with a := v, p := withNZ v u.p }) ∧
    exec .plp s = .next (advanced s 1 4 { u with p :=
      { n := v.getLsbD 7, v := v.getLsbD 6, b := false, d := v.getLsbD 3, i := v.getLsbD 2,
        z := v.getLsbD 1, c := v.getLsbD 0 } })

/-! ### Arithmetic, logic, comparison -/

/-- R241: ADC adds A, M and C, in binary or by the decimal digit correction as D selects, and writes N, V, Z
and C. In decimal mode with `DECIMAL_NVZ = Draw`, N, V and Z are draws, of which nothing is said. -/
def Obligations.AdcAdds : Prop :=
  ∀ b w, ∀ f ∈ adcForms b w, encode f.instr = f.opcode :: f.operand.bytes ∧
    ∀ s m crossed u, readOperand f.operand s = .ok ((m, crossed), u) →
      (let res := adcBySpec s.a m s.p.c s.p.d
       let done (t : State) : Prop := exec f.instr s = .next (advanced s (encode f.instr).length
         (f.cycles + (if f.penalty && crossed then 1 else 0)) t)
       (s.p.d = false ∨ s.cfg.decimalNvz = .exact → done (arithExact res u)) ∧
       (s.p.d = true → s.cfg.decimalNvz = .draw → ∃ n v z k, done (arithDrawn res n v z k u)))

/-- R242: SBC adds the complement of M; in decimal mode the result is the digit correction's and C and V are
the binary ones. In decimal mode with `DECIMAL_NVZ = Draw`, N, V and Z are draws (R250), of which nothing is
said. -/
def Obligations.SbcSubtracts : Prop :=
  ∀ b w, ∀ f ∈ sbcForms b w, encode f.instr = f.opcode :: f.operand.bytes ∧
    ∀ s m crossed u, readOperand f.operand s = .ok ((m, crossed), u) →
      (let res := sbcBySpec s.a m s.p.c s.p.d
       let done (t : State) : Prop := exec f.instr s = .next (advanced s (encode f.instr).length
         (f.cycles + (if f.penalty && crossed then 1 else 0)) t)
       (s.p.d = false ∨ s.cfg.decimalNvz = .exact → done (arithExact res u)) ∧
       (s.p.d = true → s.cfg.decimalNvz = .draw → ∃ n v z k, done (arithDrawn res n v z k u)))

/-- R243, R244, R245: AND, ORA and EOR combine A with the operand bit by bit and set Z and N. -/
def Obligations.LogicCombinesIntoA : Prop :=
  ReadsInto andForms (fun m u => { u with a := u.a &&& m, p := withNZ (u.a &&& m) u.p }) ∧
  ReadsInto oraForms (fun m u => { u with a := u.a ||| m, p := withNZ (u.a ||| m) u.p }) ∧
  ReadsInto eorForms (fun m u => { u with a := u.a ^^^ m, p := withNZ (u.a ^^^ m) u.p })

/-- R246: BIT takes N and V from bits 7 and 6 of M, and Z from A & M; nothing else changes. -/
def Obligations.BitTestsMemory : Prop :=
  ReadsInto bitForms (fun m u =>
    { u with p := { u.p with n := m.getLsbD 7, v := m.getLsbD 6, z := decide (u.a &&& m = 0) } })

/-- R247, R248, R249: CMP, CPX and CPY set C when the register is at least M, unsigned, and Z and N from the
difference; the register and V are unchanged, and D has no effect. -/
def Obligations.ComparesSetFlags : Prop :=
  (let compared (r m : Byte) (p : Flags) : Flags :=
      { withNZ (BitVec.ofNat 8 (r.toNat + 256 - m.toNat)) p with c := decide (m.toNat ≤ r.toNat) }
   ReadsInto cmpForms (fun m u => { u with p := compared u.a m u.p }) ∧
   ReadsInto cpxForms (fun m u => { u with p := compared u.x m u.p }) ∧
   ReadsInto cpyForms (fun m u => { u with p := compared u.y m u.p }))

/-! ### Increments, shifts -/

/-- R270, R271: INC and DEC read a byte, write it one more or one less modulo 256, and set Z and N; C and V
are unchanged and D has no effect. -/
def Obligations.IncDecChangeMemory : Prop :=
  RmwApplies incForms (fun m p =>
    (BitVec.ofNat 8 (m.toNat + 1), withNZ (BitVec.ofNat 8 (m.toNat + 1)) p)) ∧
  RmwApplies decForms (fun m p =>
    (BitVec.ofNat 8 (m.toNat + 255), withNZ (BitVec.ofNat 8 (m.toNat + 255)) p))

/-- R272 to R275: INX, INY, DEX and DEY move a register by one modulo 256 and set Z and N. -/
def Obligations.IncDecChangeRegister : Prop :=
  Runs [
    ⟨.inx, 0xE8, 2, fun s => { s with x := s.x + 1, p := withNZ (s.x + 1) s.p }⟩,
    ⟨.iny, 0xC8, 2, fun s => { s with y := s.y + 1, p := withNZ (s.y + 1) s.p }⟩,
    ⟨.dex, 0xCA, 2, fun s => { s with x := s.x - 1, p := withNZ (s.x - 1) s.p }⟩,
    ⟨.dey, 0x88, 2, fun s => { s with y := s.y - 1, p := withNZ (s.y - 1) s.p }⟩]

/-- R276, R277: ASL doubles modulo 256 with bit 7 to C; LSR halves with bit 0 to C; V is unchanged. -/
def Obligations.ShiftsMoveBits : Prop :=
  RmwApplies aslForms (fun m p =>
    (let r := BitVec.ofNat 8 (2 * m.toNat)
     (r, { withNZ r p with c := m.getLsbD 7 }))) ∧
  RmwApplies lsrForms (fun m p =>
    (let r := BitVec.ofNat 8 (m.toNat / 2)
     (r, { withNZ r p with c := m.getLsbD 0 })))

/-- R278, R279: ROL and ROR rotate through carry: the old C enters, the bit shifted out is the new C. -/
def Obligations.RotatesMoveBits : Prop :=
  RmwApplies rolForms (fun m p =>
    (let r := BitVec.ofNat 8 (2 * m.toNat + p.c.toNat)
     (r, { withNZ r p with c := m.getLsbD 7 }))) ∧
  RmwApplies rorForms (fun m p =>
    (let r := BitVec.ofNat 8 (p.c.toNat * 128 + m.toNat / 2)
     (r, { withNZ r p with c := m.getLsbD 0 })))

/-! ### Control transfer -/

/-- R300 to R308: each branch tests its flag; taken, it goes to pc0 + 2 plus the signed displacement and
costs one cycle more, and one more again if the target's page is not that of pc0 + 2. -/
def Obligations.BranchesTestFlag : Prop :=
  ∀ f ∈ ([
    ⟨.bcc, 0x90, fun p => !p.c⟩, ⟨.bcs, 0xB0, fun p => p.c⟩,
    ⟨.beq, 0xF0, fun p => p.z⟩, ⟨.bne, 0xD0, fun p => !p.z⟩,
    ⟨.bmi, 0x30, fun p => p.n⟩, ⟨.bpl, 0x10, fun p => !p.n⟩,
    ⟨.bvc, 0x50, fun p => !p.v⟩, ⟨.bvs, 0x70, fun p => p.v⟩] : List BranchForm),
  ∀ (d : Byte) (s : State), encode (f.instr d) = [f.opcode, d] ∧
    (let next : Word := BitVec.ofNat 16 (s.pc.toNat + 2)
     let target : Word := BitVec.ofInt 16 ((next.toNat : Int) + d.toInt)
     exec (f.instr d) s = .next { s with
       pc := if f.cond s.p then target else next
       totalCycles := s.totalCycles + (if f.cond s.p then
         (if target.toNat / 256 ≠ next.toNat / 256 then 4 else 3) else 2) })

/-- R309: JMP goes to its operand, or to the word at its pointer, whose high byte comes from the same page
when JMP_IND_WRAP is set. -/
def Obligations.JmpSetsPc : Prop :=
  (∀ w, encode (.jmpAbs w) = [0x4C, loByte w, hiByte w] ∧ encode (.jmpInd w) = [0x6C, loByte w, hiByte w]) ∧
  (∀ (w : Word) (s : State), exec (.jmpAbs w) s = .next { s with pc := w, totalCycles := s.totalCycles + 3 }) ∧
  (∀ (w : Word) (s s1 s2 : State) (lo hi : Byte), readByte w s = .ok (lo, s1) →
    readByte (if s.cfg.jmpIndWrap then (w &&& 0xFF00) ||| ((w + 1) &&& 0x00FF) else w + 1) s1 = .ok (hi, s2) →
    exec (.jmpInd w) s = .next { s2 with
      pc := BitVec.ofNat 16 (hi.toNat * 256 + lo.toNat), totalCycles := s.totalCycles + 5 })

/-- R310: JSR pushes pc0 + 2, high byte first, and goes to its operand. -/
def Obligations.JsrPushesReturn : Prop :=
  ∀ (w : Word) (s : State), encode (.jsr w) = [0x20, loByte w, hiByte w] ∧
    exec (.jsr w) s = .next { (push (loByte (s.pc + 2)) (push (hiByte (s.pc + 2)) s)) with
      pc := w, totalCycles := s.totalCycles + 6 }

/-- R311: RTS pulls a word, low byte first, and goes to it plus 1, modulo 65536. -/
def Obligations.RtsPullsReturn : Prop :=
  encode .rts = [0x60] ∧
  ∀ (s s1 s2 : State) (lo hi : Byte), pull s = .ok (lo, s1) → pull s1 = .ok (hi, s2) →
    exec .rts s = .next { s2 with
      pc := BitVec.ofNat 16 (hi.toNat * 256 + lo.toNat + 1), totalCycles := s.totalCycles + 6 }

/-- R312, R25: RTI pulls the status, with B cleared and bits 5 and 4 ignored, then PC, with no 1 added. -/
def Obligations.RtiRestoresStatusAndPc : Prop :=
  encode .rti = [0x40] ∧
  ∀ (s s1 s2 s3 : State) (p lo hi : Byte), pull s = .ok (p, s1) →
    (let q : Flags :=
       { n := p.getLsbD 7, v := p.getLsbD 6, b := false, d := p.getLsbD 3, i := p.getLsbD 2,
         z := p.getLsbD 1, c := p.getLsbD 0 }
     pull { s1 with p := q } = .ok (lo, s2)) → pull s2 = .ok (hi, s3) →
    exec .rti s = .next { s3 with
      pc := BitVec.ofNat 16 (hi.toNat * 256 + lo.toNat), totalCycles := s.totalCycles + 6 }

/-- R313: BRK pushes pc0 + 2, high byte first, then the status with bits 5 and 4 set, sets B and I, leaves D,
and goes to the word at 0xFFFE, in 7 cycles. -/
def Obligations.BrkTakesTrap : Prop :=
  encode .brk = [0x00] ∧
  ∀ (s u : State) (lo hi : Byte) (u1 : State),
    (let s1 := push (s.p.serialize true) (push (loByte (s.pc + 2)) (push (hiByte (s.pc + 2)) s))
     readByte 0xFFFE { s1 with p := { s.p with b := true, i := true } } = .ok (lo, u1)) →
    readByte 0xFFFF u1 = .ok (hi, u) →
    exec .brk s = .next { u with
      pc := BitVec.ofNat 16 (hi.toNat * 256 + lo.toNat), totalCycles := s.totalCycles + 7 }

/-- R330 to R337: each flag instruction writes its one flag; NOP writes nothing. -/
def Obligations.FlagInstructionsWriteOneFlag : Prop :=
  Runs [
    ⟨.clc, 0x18, 2, fun s => { s with p := { s.p with c := false } }⟩,
    ⟨.sec, 0x38, 2, fun s => { s with p := { s.p with c := true } }⟩,
    ⟨.cli, 0x58, 2, fun s => { s with p := { s.p with i := false } }⟩,
    ⟨.sei, 0x78, 2, fun s => { s with p := { s.p with i := true } }⟩,
    ⟨.cld, 0xD8, 2, fun s => { s with p := { s.p with d := false } }⟩,
    ⟨.sed, 0xF8, 2, fun s => { s with p := { s.p with d := true } }⟩,
    ⟨.clv, 0xB8, 2, fun s => { s with p := { s.p with v := false } }⟩,
    ⟨.nop, 0xEA, 2, fun s => s⟩]

/-- R310, R311 (FMS §8 item 8): after a JSR whose two stack bytes are plain memory, RTS comes back to the
instruction after the JSR with SP as before the call. (Memory in the model's canonical form: assumption log 15.) -/
def Obligations.RtsReturnsPastJsr : Prop :=
  ∀ (w : Word) (s : State), Mem.wf s.mem = true →
    (∀ a, a = stackAddr s.sp ∨ a = stackAddr (s.sp - 1) → s.plainRead a = true ∧ s.plainWrite a = true) →
    ∃ t u, exec (.jsr w) s = .next t ∧ exec .rts t = .next u ∧
      u.pc = s.pc + 3 ∧ u.sp = s.sp ∧ u.a = s.a ∧ u.x = s.x ∧ u.y = s.y ∧ u.p = s.p ∧ u.dev = s.dev

/-- R313, R312, R507: after a BRK whose three stack bytes and vector are plain memory, RTI comes back to
pc0 + 2 with SP and every flag but B as before; B is clear. (Memory in the model's canonical form: assumption log 15.) -/
def Obligations.RtiReturnsPastBrk : Prop :=
  ∀ (s : State), Mem.wf s.mem = true →
    (∀ a, a = stackAddr s.sp ∨ a = stackAddr (s.sp - 1) ∨ a = stackAddr (s.sp - 2) →
      s.plainRead a = true ∧ s.plainWrite a = true) →
    s.plainRead 0xFFFE = true → s.plainRead 0xFFFF = true →
    ∃ t u, exec .brk s = .next t ∧ t.p.i = true ∧ t.p.b = true ∧ exec .rti t = .next u ∧
      u.pc = s.pc + 2 ∧ u.sp = s.sp ∧ u.p = { s.p with b := false } ∧ u.a = s.a ∧ u.x = s.x ∧ u.y = s.y

/-! ### Frames -/

/-- R26: a flag not listed for an instruction is unchanged by it. -/
def Obligations.UnlistedFlagsUnchanged : Prop :=
  ∀ (i : Instr) (d : Descriptor) (s t : State) (f : FlagName), i.descriptor = some d → exec i s = .next t →
    d.mnemonic ∉ flagWriters f → t.p.value f = s.p.value f

/-- R20, R21, and the rules of the instructions for what each writes: an instruction leaves A, X, Y and SP unchanged but for those it writes. -/
def Obligations.UnwrittenRegistersUnchanged : Prop :=
  ∀ (i : Instr) (d : Descriptor) (s t : State), i.descriptor = some d → exec i s = .next t →
    (writesA d = false → t.a = s.a) ∧ (writesX d = false → t.x = s.x) ∧
    (writesY d = false → t.y = s.y) ∧ (writesSp d = false → t.sp = s.sp)

/-- R134: an instruction that neither stores nor pushes leaves every byte of memory as it was. -/
def Obligations.NonStoringLeavesMemory : Prop :=
  ∀ (i : Instr) (d : Descriptor) (s t : State), i.descriptor = some d → exec i s = .next t →
    writesMem d = false → ∀ a, Mem.read t.mem a = Mem.read s.mem a

/-- R134, R203 to R205, R270, R271, R276 to R279: a store or read-modify-write leaves every byte but the one
at its effective address as it was. -/
def Obligations.StoresTouchOneByte : Prop :=
  (∀ b w, ∀ f ∈ staForms b w ++ stxForms b w ++ styForms b w, ∀ (s t u : State) (ea : Word) (crossed : Bool),
    effAddr f.operand s = .ok ((ea, crossed), u) → exec f.instr s = .next t →
    ∀ a, a ≠ ea → Mem.read t.mem a = Mem.read s.mem a) ∧
  (∀ b w, ∀ f ∈ incForms b w ++ decForms b w ++ aslForms b w ++ lsrForms b w ++ rolForms b w ++ rorForms b w,
    ∀ (m : MemMode), f.operand = .mem m → ∀ (s t u : State) (ea : Word) (crossed : Bool),
    effAddr m s = .ok ((ea, crossed), u) → exec f.instr s = .next t →
    ∀ a, a ≠ ea → Mem.read t.mem a = Mem.read s.mem a)

/-- R140, R220, R221, R310, R313: a push leaves every byte but its stack slots as it was: one for PHA and
PHP, two for JSR, three for BRK. -/
def Obligations.PushesTouchStackSlots : Prop :=
  (∀ (i : Instr) (s t : State), i = .pha ∨ i = .php → exec i s = .next t →
    ∀ a, a ≠ stackAddr s.sp → Mem.read t.mem a = Mem.read s.mem a) ∧
  (∀ (w : Word) (s t : State), exec (.jsr w) s = .next t →
    ∀ a, a ≠ stackAddr s.sp → a ≠ stackAddr (s.sp - 1) → Mem.read t.mem a = Mem.read s.mem a) ∧
  (∀ (s t : State), exec .brk s = .next t →
    ∀ a, a ≠ stackAddr s.sp → a ≠ stackAddr (s.sp - 1) → a ≠ stackAddr (s.sp - 2) →
      Mem.read t.mem a = Mem.read s.mem a)

/-- R73: with no hook installed an instruction leaves the devices as they were. -/
def Obligations.UnhookedLeavesDevices : Prop :=
  ∀ (i : Instr) (s t : State), s.readHooks = [] → s.writeHooks = [] → exec i s = .next t → t.dev = s.dev

/-- R31, R32, R28, R29, R5, R506: no step changes the parameters, the page modes, the hooks, the breakpoints,
the cancel flag or the IRQ line. (That the parameters are a constant field is the model's choice, assumption
log 9; that a step leaves the line to the host is its reading of R506, assumption log 5.) -/
def Obligations.StepKeepsSetup : Prop :=
  ∀ (s t : State), step s = .next t →
    t.cfg = s.cfg ∧ t.pageModes = s.pageModes ∧ t.readHooks = s.readHooks ∧ t.writeHooks = s.writeHooks ∧
    t.breakpoints = s.breakpoints ∧ t.cancelRequested = s.cancelRequested ∧ t.irqLine = s.irqLine

/-- R150, R151, R152, R565: a step costs 2 to 7 cycles. (For an IRQ entry: assumption log 5.) -/
def Obligations.StepCostsTwoToSeven : Prop :=
  ∀ (s t : State), step s = .next t → s.totalCycles + 2 ≤ t.totalCycles ∧ t.totalCycles ≤ s.totalCycles + 7

/-! ### Invariants, reset and the host -/

/-- R36: the state after reset is good. (The canonical form in it is the model's: assumption log 15.) -/
def Obligations.ResetIsGood : Prop := State.reset.wf = true

/-- R30, R34, R35, R412: every step from a good state leads to a good one: memory, page table and device
states canonical, the head within its range, the media position within the track, every track buffer of
the track length. (The canonical form is the model's: assumption log 15.) -/
def Obligations.StepKeepsGoodState : Prop :=
  ∀ (s t : State), s.wf = true → step s = .next t → t.wf = true

/-- R36, R550, R552: construction in the default configuration followed by `reset()` gives SP = 0xFF, I set,
PC the sentinel word 0xCCCC and everything else as constructed, whatever the drawn registers; with the
model's own choice for the draws (assumption log 1) it gives `State.reset`. -/
def Obligations.ResetAfterConstruction : Prop :=
  (∀ r : InitRegs, warmReset (construct Config.default [] [] [] r) =
    .ok { (construct Config.default [] [] [] r) with sp := 0xFF, pc := 0xCCCC, p := { r.p with i := true } }) ∧
  ∃ r : InitRegs, warmReset (construct Config.default [] [] [] r) = .ok State.reset

/-- R68: `loadBinary` copies exactly `length` bytes of the file to `offset` and on, into the backing array
whatever the hooks and page modes, and changes nothing else; memory stays canonical (the model's form,
assumption log 15). It fails if the file is missing or shorter, or if the range passes 65536; which error is
reported where two apply is the model's choice (assumption log 12). -/
def Obligations.LoadBinaryPlacesBytes : Prop :=
  ∀ (bytes : List Byte) (offset length : Nat) (s : State),
    loadBinary none offset length s = .error .missingFile ∧
    (bytes.length < length → loadBinary (some bytes) offset length s = .error .shortFile) ∧
    (length ≤ bytes.length → offset + length > 65536 →
      loadBinary (some bytes) offset length s = .error .outOfRange) ∧
    (length ≤ bytes.length → offset + length ≤ 65536 → Mem.wf s.mem = true →
      ∃ m, loadBinary (some bytes) offset length s = .ok { s with mem := m } ∧ Mem.wf m = true ∧
        (∀ k, k < length → bytes[k]? = some (Mem.read m (BitVec.ofNat 16 (offset + k)))) ∧
        (∀ a : Word, a.toNat < offset ∨ offset + length ≤ a.toNat → Mem.read m a = Mem.read s.mem a))

/-- R552: `reset()` sets SP to 0xFF and I, reads the vector at 0xFFFC, low byte first, through the hooks, and
changes nothing else. -/
def Obligations.WarmResetReadsVector : Prop :=
  ∀ (s s1 s2 : State) (lo hi : Byte),
    readByte 0xFFFC { s with sp := 0xFF, p := { s.p with i := true } } = .ok (lo, s1) →
    readByte 0xFFFD s1 = .ok (hi, s2) →
    warmReset s = .ok { s2 with pc := BitVec.ofNat 16 (hi.toNat * 256 + lo.toNat) }

/-- R553: `coldReset()` is `reset()` after A, X, Y and every flag are zeroed and the backing bytes below
ROM_BASE, and no other, are cleared, whatever the hooks and page modes; memory stays canonical (the model's
form, assumption log 15). -/
def Obligations.ColdResetClearsRam : Prop :=
  ∀ s : State, Mem.wf s.mem = true → s.cfg.romBase ≤ 0x10000 →
    ∃ m, (∀ a : Word, a.toNat < s.cfg.romBase → Mem.read m a = 0x00) ∧
      (∀ a : Word, s.cfg.romBase ≤ a.toNat → Mem.read m a = Mem.read s.mem a) ∧ Mem.wf m = true ∧
      coldReset s = warmReset { s with
        a := 0x00, x := 0x00, y := 0x00, mem := m
        p := { n := false, v := false, b := false, d := false, i := false, z := false, c := false } }

/-- R161, R162: one iteration of the batch loop tests cancellation before the step, then reports an invalid
opcode, then the breakpoint on the new PC, then the budget, which must be exceeded. -/
def Obligations.BatchTestsInOrder : Prop :=
  (∀ budget spent s, s.cancelRequested = true →
    batchIteration budget spent s = .done (.stopped .cancelled { s with cancelRequested := false })) ∧
  (∀ budget spent s pc u, s.cancelRequested = false → step s = .fault (.invalidOpcode pc u) →
    batchIteration budget spent s = .done (.stopped (.invalidOpcode pc) u)) ∧
  (∀ budget spent s t, s.cancelRequested = false → step s = .next t → t.pc ∈ t.breakpoints →
    batchIteration budget spent s = .done (.stopped (.breakpoint t.pc) t)) ∧
  (∀ budget spent s t, s.cancelRequested = false → step s = .next t → t.pc ∉ t.breakpoints →
    batchIteration budget spent s =
      if spent + (t.totalCycles - s.totalCycles) > budget then .done (.stopped .budgetExhausted t)
      else .more (spent + (t.totalCycles - s.totalCycles)) t)

/-- R565: a batch that stops because its budget is exhausted has spent more than the budget and at most 7
cycles more. (Across an IRQ entry this rests on the model's reading that its 7 cycles are counted: assumption
log 5.) -/
def Obligations.BatchOvershootsBySeven : Prop :=
  ∀ (budget : Nat) (s t : State), runBatch budget s = .stopped .budgetExhausted t →
    s.totalCycles + budget < t.totalCycles ∧ t.totalCycles ≤ s.totalCycles + budget + 7

/-! ### The Disk II controller -/

/-- R400, R401, R403: with the controller's hooks first and a legal slot, a read or a write of strobe
address n of the slot's window runs `diskAccess`, changes the drive and nothing else, and a read gets its
byte; a write in the card ROM window is discarded. -/
def Obligations.StrobeWindowReachesController : Prop :=
  ∀ (s : State) (n : Nat), s.hasDisk → s.cfg.slotOk = true → n < 16 →
    (let a : Word := BitVec.ofNat 16 (0xC080 + 0x10 * s.cfg.diskSlot + n)
     (readByte a s = .ok ((diskAccess s.cfg a none s.dev.drive).1,
       { s with dev := { s.dev with drive := (diskAccess s.cfg a none s.dev.drive).2 } })) ∧
     (∀ v, writeByte a v s =
       { s with dev := { s.dev with drive := (diskAccess s.cfg a (some v) s.dev.drive).2 } }) ∧
     (∀ k v, k < 256 → writeByte (BitVec.ofNat 16 (0xC000 + 0x100 * s.cfg.diskSlot + k)) v s = s))

/-- R404, R425: sub-command n of the soft-switch table sets its one latch, or runs `setPhase`, and changes
nothing else; with no disk that is all a strobe does, and it reads 0x00. -/
def Obligations.SoftSwitchesSetOneLatch : Prop :=
  (∀ (cfg : Config) (d : Drive) (n : Nat), n < 16 →
    applySwitch cfg n d =
      (if h : n < 8 then setPhase cfg ⟨n / 2, by omega⟩ (decide (n % 2 = 1)) d
       else if n = 8 then { d with motorOn := false }
       else if n = 9 then { d with motorOn := true }
       else if n = 10 then { d with driveSelect := .drive1 }
       else if n = 11 then { d with driveSelect := .drive2 }
       else if n = 12 then { d with q6 := false }
       else if n = 13 then { d with q6 := true }
       else if n = 14 then { d with q7 := false }
       else { d with q7 := true })) ∧
  (∀ (cfg : Config) (d : Drive) (a : Word) (v : Option Byte), d.disk = none →
    diskAccess cfg a v d = (0x00, applySwitch cfg (a.toNat % 16) d))

/-- R411, R412, R413: only an off-to-on transition moves the head: inward by one if the phase is the next one
from the head's, stopped at HMAX, outward by one if it is the one before, stopped at 0. The head never
leaves its range, the track is in 0 to 34, and nothing but the phase and the head changes. From track 0 with
every phase off the sequence Phase1 on, Phase3 on, Phase1 off, Phase3 off ends one track in, in both stepper
models. -/
def Obligations.StepperMovesOneStep : Prop :=
  (∀ (cfg : Config) (q : Fin 4) (on : Bool) (d : Drive), d.headPos ≤ headMax cfg →
    (let d' := setPhase cfg q on d
     let rises := on = true ∧ d.phases[q] = false
     d'.phases[q] = on ∧ (∀ r : Fin 4, r ≠ q → d'.phases[r] = d.phases[r]) ∧
     d'.headPos ≤ headMax cfg ∧ currentTrack cfg d' ≤ 34 ∧
     d' = { d with phases := d'.phases, headPos := d'.headPos } ∧
     (¬ rises → d'.headPos = d.headPos) ∧
     (rises → q.val = (d.headPos % 4 + 1) % 4 → d.headPos < headMax cfg → d'.headPos = d.headPos + 1) ∧
     (rises → q.val = (d.headPos % 4 + 1) % 4 → d.headPos = headMax cfg → d'.headPos = d.headPos) ∧
     (rises → q.val = (d.headPos % 4 + 3) % 4 → d'.headPos = d.headPos - 1) ∧
     (rises → q.val = d.headPos % 4 ∨ q.val = (d.headPos % 4 + 2) % 4 → d'.headPos = d.headPos))) ∧
  (∀ (cfg : Config) (d : Drive), d.headPos = 0 → d.phases = Vector.replicate 4 false →
    (let d' := afterPhases cfg [(1, true), (3, true), (1, false), (3, false)] d
     currentTrack cfg d = 0 ∧ currentTrack cfg d' = 1))

/-- R403, R418, R419, R422, R423, R424: once the switch is applied, the strobe acts by the mode of Q6 and Q7:
Read serves the nibble under the head and advances; Sense gives 0x80 on a protected disk; Write stores the
latch unless protected and advances; Write-load latches a written value. The media advances only with the
motor on, modulo the track length. -/
def Obligations.DataStrobesFollowMode : Prop :=
  ∀ (cfg : Config) (d d1 : Drive) (img : DiskImage) (a : Word) (v : Option Byte),
    d.wf cfg = true → d.disk = some img → applySwitch cfg (a.toNat % 16) d = d1 →
    (let t := (img.tracks[currentTrack cfg d1]?).getD []
     let moved : Drive := { d1 with
       mediaPosition := if d1.motorOn then (d1.mediaPosition + 1) % trackLen cfg else d1.mediaPosition }
     t.length = trackLen cfg ∧
     (d1.q6 = false → d1.q7 = false → v = none →
       ∃ nib, t[d1.mediaPosition]? = some nib ∧ diskAccess cfg a v d = (nib, moved)) ∧
     (d1.q6 = false → d1.q7 = false → v ≠ none → diskAccess cfg a v d = (0x00, d1)) ∧
     (d1.q6 = true → d1.q7 = false → v = none →
       diskAccess cfg a v d = (if img.writeProtect then 0x80 else 0x00, d1)) ∧
     (d1.q6 = true → d1.q7 = false → v ≠ none → diskAccess cfg a v d = (0x00, d1)) ∧
     (d1.q6 = false → d1.q7 = true →
       (let after := if img.writeProtect then img.tracks
          else img.tracks.set (currentTrack cfg d1) (t.set d1.mediaPosition d1.writeLatch)
        diskAccess cfg a v d = (0x00, { moved with disk := some { img with tracks := after } }))) ∧
     (d1.q6 = true → d1.q7 = true →
       diskAccess cfg a v d = (0x00, { d1 with writeLatch := v.getD d1.writeLatch })))

/-- R419, R421: with the controller's hooks first, a disk in, the motor on and Read mode, `k` reads in a row
of the read-data strobe give the next `k` nibbles of the track, round the circle, and leave the media `k`
positions on. -/
def Obligations.ReadsServeTrackInOrder : Prop :=
  ∀ (s : State) (img : DiskImage) (k : Nat), s.wf = true → s.hasDisk → s.dev.drive.disk = some img →
    s.dev.drive.motorOn = true → s.dev.drive.q7 = false →
    (let drv := s.dev.drive
     let t := (img.tracks[currentTrack s.cfg drv]?).getD []
     ∃ vs u, readsInARow (BitVec.ofNat 16 (0xC08C + 0x10 * s.cfg.diskSlot)) k s = .ok (vs, u) ∧
       vs = (List.range k).map (fun j => t.getD ((drv.mediaPosition + j) % t.length) 0x00) ∧
       u.dev.drive.mediaPosition = (drv.mediaPosition + k) % t.length)

/-! ### The codec -/

/-- R451, R450: the decoding formula, truncated to 8 bits; the forced bits of the code; and the round trip, for
every byte. -/
def Obligations.FourAndFourRoundTrip : Prop :=
  (∀ e1 e2 : Byte, fourAndFourDecode e1 e2 = BitVec.ofNat 8 (((2 * e1.toNat) ||| 1) &&& e2.toNat)) ∧
  ∀ b : Byte, (fourAndFourEncode b).1 &&& 0xAA = 0xAA ∧ (fourAndFourEncode b).2 &&& 0xAA = 0xAA ∧
    fourAndFourDecode (fourAndFourEncode b).1 (fourAndFourEncode b).2 = b

/-- R458: for every 256-byte sector, the 6-and-2 encoding is 343 nibbles of the table and decodes to the
sector. -/
def Obligations.SixAndTwoRoundTrip : Prop :=
  ∀ d : List Byte, d.length = 256 →
    ∃ n, sixAndTwoEncode d = .ok n ∧ n.length = 343 ∧ (∀ x ∈ n, x ∈ t62Table) ∧
      sixAndTwoDecode n = .ok (.ok d)

/-- R430, R470, R472: attaching a 143,360-byte image with a known extension puts in the drive 35 tracks of
the track length in the order the extension selects, sets the media position to 0, changes nothing else,
and keeps a good state good (the canonical form in it is the model's: assumption log 15). -/
def Obligations.AttachBuildsDisk : Prop :=
  ∀ (image : List Byte) (ext : String) (wp : Bool) (s : State), image.length = 143360 →
    ext = ".do" ∨ ext = ".dsk" ∨ ext = ".po" →
    ∃ img, attachDiskImage (some image) ext wp s = .ok { s with dev := { s.dev with
        drive := { s.dev.drive with disk := some img, mediaPosition := 0 } } } ∧
      img.writeProtect = wp ∧ img.order = (if ext = ".po" then .prodos else .dos33) ∧
      img.tracks.length = 35 ∧ (∀ t ∈ img.tracks, t.length = 16 * (s.cfg.gap1 + s.cfg.gap2 + s.cfg.gap3 + 363)) ∧
      (∀ k, k < 35 → encodeTrack s.cfg image k s.cfg.volume img.order = .ok (img.tracks.getD k [])) ∧
      (s.wf = true → ∃ u, attachDiskImage (some image) ext wp s = .ok u ∧ u.wf = true)
end

