-- ==== Sys2Proof/Laws/Bits.lean ====
section
/-! SUPPORT. The byte-order and extension helpers as arithmetic, and that splitting and joining a word undo
each other (spec/00_scope.md R6, R7; spec/20_memory.md R69). -/

namespace Sys2Proof

theorem joinBytes_toNat (h l : Byte) : (joinBytes h l).toNat = h.toNat * 256 + l.toNat := by
  have e := BitVec.toNat_append h l
  rw [← Nat.shiftLeft_add_eq_or_of_lt l.isLt, Nat.shiftLeft_eq] at e
  exact e

theorem hiByte_toNat (w : Word) : (hiByte w).toNat = w.toNat / 256 := by
  have h := w.isLt
  simp only [hiByte, BitVec.extractLsb'_toNat, Nat.shiftRight_eq_div_pow]
  omega

theorem loByte_toNat (w : Word) : (loByte w).toNat = w.toNat % 256 := by
  simp [loByte, BitVec.extractLsb'_toNat]

theorem zext16_toNat (b : Byte) : (zext16 b).toNat = b.toNat := by
  have h := b.isLt
  simp only [zext16, BitVec.toNat_setWidth]
  omega

@[simp] theorem joinBytes_hi_lo (w : Word) : joinBytes (hiByte w) (loByte w) = w := by
  apply BitVec.eq_of_toNat_eq
  rw [joinBytes_toNat, hiByte_toNat, loByte_toNat]
  omega

@[simp] theorem hiByte_joinBytes (h l : Byte) : hiByte (joinBytes h l) = h := by
  apply BitVec.eq_of_toNat_eq
  have hl := l.isLt
  rw [hiByte_toNat, joinBytes_toNat]
  omega

@[simp] theorem loByte_joinBytes (h l : Byte) : loByte (joinBytes h l) = l := by
  apply BitVec.eq_of_toNat_eq
  have hl := l.isLt
  rw [loByte_toNat, joinBytes_toNat]
  omega

end Sys2Proof
end

