-- ==== Sys2Proof/Laws/Disk.lean ====
section
/-! SUPPORT. What the Disk II controller's operations can do, and that they keep the drive in its ranges
(spec/50_disk_controller.md R410 to R426). -/

namespace Sys2Proof.Machine

theorem trackLen_pos (cfg : Config) : 0 < trackLen cfg := by
  simp only [trackLen, sectorsPerTrack, sectorFieldLen]
  omega

theorem Drive.wf_iff (cfg : Config) (d : Drive) :
    d.wf cfg = true ↔ d.headPos ≤ headMax cfg ∧ d.mediaPosition < trackLen cfg ∧
      ∀ img, d.disk = some img → img.wf cfg = true := by
  simp only [Drive.wf, Bool.and_eq_true, decide_eq_true_eq]
  cases d.disk <;> simp [and_assoc]

theorem DiskImage.wf_iff (cfg : Config) (img : DiskImage) :
    img.wf cfg = true ↔ img.tracks.length = 35 ∧ ∀ t ∈ img.tracks, t.length = trackLen cfg := by
  simp only [DiskImage.wf, Bool.and_eq_true, decide_eq_true_eq, List.all_eq_true]
  exact Iff.rfl

/-- `currentTrack` is in 0 to 34 for a head in its range (R410). -/
theorem currentTrack_lt {cfg : Config} {d : Drive} (h : d.headPos ≤ headMax cfg) :
    currentTrack cfg d < 35 := by
  cases hs : cfg.stepper <;> simp only [currentTrack, headMax, hs] at h ⊢ <;> omega

/-- The head stays in its range (R412). -/
theorem steppedHead_le {cfg : Config} {q h : Nat} (hh : h ≤ headMax cfg) :
    steppedHead cfg q h ≤ headMax cfg := by
  simp only [steppedHead]
  split
  · exact Nat.min_le_right _ _
  · split <;> omega

theorem setPhase_headPos_le {cfg : Config} {q : Fin 4} {on : Bool} {d : Drive}
    (h : d.headPos ≤ headMax cfg) : (setPhase cfg q on d).headPos ≤ headMax cfg := by
  simp only [setPhase]
  split
  · exact steppedHead_le h
  · exact h

/-- A switch moves neither the media nor the disk (R404, R412). -/
theorem applySwitch_media (cfg : Config) (n : Nat) (d : Drive) :
    (applySwitch cfg n d).mediaPosition = d.mediaPosition ∧ (applySwitch cfg n d).disk = d.disk ∧
      (applySwitch cfg n d).writeLatch = d.writeLatch := by
  simp only [applySwitch]
  split <;> exact ⟨rfl, rfl, rfl⟩

theorem applySwitch_headPos_le {cfg : Config} (n : Nat) {d : Drive} (h : d.headPos ≤ headMax cfg) :
    (applySwitch cfg n d).headPos ≤ headMax cfg := by
  simp only [applySwitch]
  split
  all_goals first
    | exact h
    | exact setPhase_headPos_le h

theorem applySwitch_wf {cfg : Config} (n : Nat) {d : Drive} (h : d.wf cfg = true) :
    (applySwitch cfg n d).wf cfg = true := by
  rw [Drive.wf_iff] at h ⊢
  obtain ⟨hm, hd, -⟩ := applySwitch_media cfg n d
  rw [hm, hd]
  exact ⟨applySwitch_headPos_le n h.1, h.2⟩

/-- The track under a head in its range has the track length (R35). -/
theorem trackAt_length {cfg : Config} {img : DiskImage} {t : Nat} (h : img.wf cfg = true) (ht : t < 35) :
    (trackAt img t).length = trackLen cfg := by
  rw [DiskImage.wf_iff] at h
  have ht' : t < img.tracks.length := by omega
  simp only [trackAt, List.getElem?_eq_getElem ht', Option.getD_some]
  exact h.2 _ (List.getElem_mem ht')

theorem writeNibble_wf {cfg : Config} {img : DiskImage} {t pos : Nat} {v : Byte} (h : img.wf cfg = true)
    (ht : t < 35) : (writeNibble img t pos v).wf cfg = true := by
  have hl := trackAt_length h ht
  rw [DiskImage.wf_iff] at h ⊢
  simp only [writeNibble, List.length_set]
  refine ⟨h.1, fun u hu => ?_⟩
  rcases List.mem_or_eq_of_mem_set hu with hu | rfl
  · exact h.2 u hu
  · simpa using hl

theorem advanceMedia_wf {cfg : Config} {d : Drive} (h : d.wf cfg = true) :
    (advanceMedia (trackLen cfg) d).wf cfg = true := by
  simp only [advanceMedia]
  split
  · rw [Drive.wf_iff] at h ⊢
    exact ⟨h.1, Nat.mod_lt _ (trackLen_pos cfg), h.2.2⟩
  · exact h

theorem strobeData_wf {cfg : Config} {img : DiskImage} (v : Option Byte) {d : Drive}
    (h : d.wf cfg = true) (hi : d.disk = some img) : (strobeData cfg img v d).2.wf cfg = true := by
  have hd := (Drive.wf_iff cfg d).1 h
  have ht : currentTrack cfg d < 35 := currentTrack_lt hd.1
  have hw := hd.2.2 img hi
  have hl := trackAt_length hw ht
  simp only [strobeData, hl]
  split
  · split
    · exact advanceMedia_wf h
    · exact h
  · split <;> exact h
  · refine advanceMedia_wf ?_
    rw [Drive.wf_iff]
    refine ⟨hd.1, hd.2.1, fun im him => ?_⟩
    simp only [Option.some.injEq] at him
    subst him
    split
    · exact hw
    · exact writeNibble_wf hw ht
  · split
    · exact h
    · rw [Drive.wf_iff]; exact hd

/-- An access to the strobe window keeps the drive in its ranges. -/
theorem diskAccess_wf {cfg : Config} (a : Word) (v : Option Byte) {d : Drive} (h : d.wf cfg = true) :
    (diskAccess cfg a v d).2.wf cfg = true := by
  simp only [diskAccess]
  split
  · exact applySwitch_wf _ h
  · next img hi => exact strobeData_wf v (applySwitch_wf _ h) hi

/-- With no disk a strobe applies its switch and reads 0x00 (R425). -/
theorem diskAccess_noDisk {cfg : Config} (a : Word) (v : Option Byte) {d : Drive} (h : d.disk = none) :
    diskAccess cfg a v d = (0x00, applySwitch cfg (strobeIndex a) d) := by
  simp only [diskAccess, (applySwitch_media cfg _ d).2.1, h]

end Sys2Proof.Machine
end

