-- ==== Sys2Proof/Laws/Sparse.lean ====
section
/-! SUPPORT. The laws of sparse lists, of memory and of the page table: a read after a write, and that every
operation keeps the canonical form. -/

namespace Sys2Proof.Machine

section
variable {α : Type} [DecidableEq α] (d : α)

theorem Sparse.wfFrom_mono {lo lo' : Nat} {m : List (Nat × α)} (h : Sparse.wfFrom d lo m = true)
    (hl : lo' ≤ lo) : Sparse.wfFrom d lo' m = true := by
  cases m with
  | nil => rfl
  | cons e m =>
    obtain ⟨k, v⟩ := e
    simp only [Sparse.wfFrom, Bool.and_eq_true, decide_eq_true_eq] at h ⊢
    exact ⟨⟨by omega, h.1.2⟩, h.2⟩

/-- A key below every listed key reads as the default. -/
theorem Sparse.get_below {lo a : Nat} {m : List (Nat × α)} (h : Sparse.wfFrom d lo m = true)
    (ha : a < lo) : Sparse.get d m a = d := by
  induction m generalizing lo with
  | nil => rfl
  | cons e m ih =>
    obtain ⟨k, v⟩ := e
    simp only [Sparse.wfFrom, Bool.and_eq_true, decide_eq_true_eq] at h
    have : a ≠ k := by omega
    simp only [Sparse.get, if_neg this]
    exact ih h.2 (by omega)

theorem Sparse.get_set_same {lo a : Nat} {v : α} {m : List (Nat × α)} (h : Sparse.wfFrom d lo m = true) :
    Sparse.get d (Sparse.set d m a v) a = v := by
  induction m generalizing lo with
  | nil =>
    simp only [Sparse.set]
    split
    · next hv => simp [Sparse.get, hv]
    · simp [Sparse.get]
  | cons e m ih =>
    obtain ⟨k, w⟩ := e
    simp only [Sparse.wfFrom, Bool.and_eq_true, decide_eq_true_eq] at h
    simp only [Sparse.set]
    split
    · next hk =>
      have hne : a ≠ k := by omega
      split
      · next hv =>
        simp only [Sparse.get, if_neg hne]
        rw [Sparse.get_below d h.2 (by omega), hv]
      · simp [Sparse.get]
    · split
      · next hk =>
        split
        · next hv => rw [Sparse.get_below d h.2 (by omega), hv]
        · simp [Sparse.get]
      · next hk => simp only [Sparse.get, if_neg hk]; exact ih h.2

theorem Sparse.get_set_other {a b : Nat} {v : α} {m : List (Nat × α)} (hb : b ≠ a) :
    Sparse.get d (Sparse.set d m a v) b = Sparse.get d m b := by
  induction m with
  | nil =>
    simp only [Sparse.set]
    split
    · rfl
    · simp [Sparse.get, hb]
  | cons e m ih =>
    obtain ⟨k, w⟩ := e
    simp only [Sparse.set]
    split
    · split
      · rfl
      · simp [Sparse.get, hb]
    · split
      · next hk =>
        split
        · simp [Sparse.get, ← hk, hb]
        · simp [Sparse.get, ← hk, hb]
      · simp only [Sparse.get, ih]

theorem Sparse.set_wfFrom {lo a : Nat} {v : α} {m : List (Nat × α)} (h : Sparse.wfFrom d lo m = true)
    (hl : lo ≤ a) : Sparse.wfFrom d lo (Sparse.set d m a v) = true := by
  induction m generalizing lo with
  | nil =>
    simp only [Sparse.set]
    split
    · rfl
    · next hv => simp [Sparse.wfFrom, hl, hv]
  | cons e m ih =>
    obtain ⟨k, w⟩ := e
    have h' := h
    simp only [Sparse.wfFrom, Bool.and_eq_true, decide_eq_true_eq] at h'
    simp only [Sparse.set]
    split
    · next hk =>
      split
      · exact h
      · next hv =>
        simp only [Sparse.wfFrom, Bool.and_eq_true, decide_eq_true_eq]
        exact ⟨⟨hl, hv⟩, ⟨by omega, h'.1.2⟩, h'.2⟩
    · split
      · next hk =>
        split
        · exact Sparse.wfFrom_mono d h'.2 (by omega)
        · next hv =>
          simp only [Sparse.wfFrom, Bool.and_eq_true, decide_eq_true_eq]
          exact ⟨⟨hl, hv⟩, by rw [hk]; exact h'.2⟩
      · next hk1 hk2 =>
        simp only [Sparse.wfFrom, Bool.and_eq_true, decide_eq_true_eq]
        exact ⟨⟨h'.1.1, h'.1.2⟩, ih h'.2 (by omega)⟩

theorem Sparse.set_below {bound a : Nat} {v : α} {m : List (Nat × α)} (h : Sparse.below bound m = true)
    (ha : a < bound) : Sparse.below bound (Sparse.set d m a v) = true := by
  induction m with
  | nil =>
    simp only [Sparse.set]
    split
    · rfl
    · simp [Sparse.below, ha]
  | cons e m ih =>
    obtain ⟨k, w⟩ := e
    simp only [Sparse.below, List.all_cons, Bool.and_eq_true, decide_eq_true_eq] at h ih
    simp only [Sparse.set]
    split
    · split <;> simp only [Sparse.below, List.all_cons, Bool.and_eq_true, decide_eq_true_eq]
      · exact h
      · exact ⟨ha, h⟩
    · split
      · split
        · exact h.2
        · simp only [Sparse.below, List.all_cons, Bool.and_eq_true, decide_eq_true_eq]
          exact ⟨ha, h.2⟩
      · simp only [Sparse.below, List.all_cons, Bool.and_eq_true, decide_eq_true_eq]
        exact ⟨h.1, ih h.2⟩

end

/-! ### Memory -/

theorem Mem.read_write_same {m : List Host.Cell} (a : Word) (v : Byte) (h : Mem.wf m = true) :
    Mem.read (Mem.write m a v) a = v := by
  simp only [Mem.wf, Bool.and_eq_true] at h
  exact Sparse.get_set_same sentinel h.1

theorem Mem.read_write_other (m : List Host.Cell) {a b : Word} (v : Byte) (h : b ≠ a) :
    Mem.read (Mem.write m a v) b = Mem.read m b :=
  Sparse.get_set_other sentinel (fun e => h (BitVec.eq_of_toNat_eq e))

theorem Mem.write_wf {m : List Host.Cell} (a : Word) (v : Byte) (h : Mem.wf m = true) :
    Mem.wf (Mem.write m a v) = true := by
  simp only [Mem.wf, Bool.and_eq_true] at h ⊢
  exact ⟨Sparse.set_wfFrom sentinel h.1 (Nat.zero_le _), Sparse.set_below sentinel h.2 a.isLt⟩

theorem storeBytes_wf (bs : List Byte) {m : List Host.Cell} (a : Word) (h : Mem.wf m = true) :
    Mem.wf (storeBytes m a bs) = true := by
  induction bs generalizing m a with
  | nil => exact h
  | cons v vs ih => exact ih (a + 1) (Mem.write_wf a v h)

theorem sparse_wfFrom_filter {α : Type} [DecidableEq α] (d : α) (f : Nat × α → Bool) {lo : Nat}
    {m : List (Nat × α)} (h : Sparse.wfFrom d lo m = true) : Sparse.wfFrom d lo (m.filter f) = true := by
  induction m generalizing lo with
  | nil => rfl
  | cons e m ih =>
    obtain ⟨k, v⟩ := e
    have h' := h
    simp only [Sparse.wfFrom, Bool.and_eq_true, decide_eq_true_eq] at h'
    simp only [List.filter_cons]
    split
    · simp only [Sparse.wfFrom, Bool.and_eq_true, decide_eq_true_eq]
      exact ⟨h'.1, ih h'.2⟩
    · exact ih (Sparse.wfFrom_mono d h'.2 (by omega))

theorem reset_mem_wf : Mem.wf State.reset.mem = true := rfl

end Sys2Proof.Machine
end

