-- ==== Sys2Proof/Laws/State.lean ====
section
/-! SUPPORT. One lemma per field of `State` and per update of Machine/Ops.lean, each true by `rfl`, so that
no proof unfolds a record update. -/

namespace Sys2Proof.Machine

variable (s : State)

section
variable (v : Byte)
@[simp] theorem State.setA_cfg : (s.setA v).cfg = s.cfg := rfl
@[simp] theorem State.setA_a : (s.setA v).a = v := rfl
@[simp] theorem State.setA_x : (s.setA v).x = s.x := rfl
@[simp] theorem State.setA_y : (s.setA v).y = s.y := rfl
@[simp] theorem State.setA_sp : (s.setA v).sp = s.sp := rfl
@[simp] theorem State.setA_pc : (s.setA v).pc = s.pc := rfl
@[simp] theorem State.setA_p : (s.setA v).p = s.p := rfl
@[simp] theorem State.setA_totalCycles : (s.setA v).totalCycles = s.totalCycles := rfl
@[simp] theorem State.setA_breakpoints : (s.setA v).breakpoints = s.breakpoints := rfl
@[simp] theorem State.setA_cancelRequested : (s.setA v).cancelRequested = s.cancelRequested := rfl
@[simp] theorem State.setA_irqLine : (s.setA v).irqLine = s.irqLine := rfl
@[simp] theorem State.setA_mem : (s.setA v).mem = s.mem := rfl
@[simp] theorem State.setA_pageModes : (s.setA v).pageModes = s.pageModes := rfl
@[simp] theorem State.setA_readHooks : (s.setA v).readHooks = s.readHooks := rfl
@[simp] theorem State.setA_writeHooks : (s.setA v).writeHooks = s.writeHooks := rfl
@[simp] theorem State.setA_dev : (s.setA v).dev = s.dev := rfl
@[simp] theorem State.setA_draws : (s.setA v).draws = s.draws := rfl
end

section
variable (v : Byte)
@[simp] theorem State.setX_cfg : (s.setX v).cfg = s.cfg := rfl
@[simp] theorem State.setX_a : (s.setX v).a = s.a := rfl
@[simp] theorem State.setX_x : (s.setX v).x = v := rfl
@[simp] theorem State.setX_y : (s.setX v).y = s.y := rfl
@[simp] theorem State.setX_sp : (s.setX v).sp = s.sp := rfl
@[simp] theorem State.setX_pc : (s.setX v).pc = s.pc := rfl
@[simp] theorem State.setX_p : (s.setX v).p = s.p := rfl
@[simp] theorem State.setX_totalCycles : (s.setX v).totalCycles = s.totalCycles := rfl
@[simp] theorem State.setX_breakpoints : (s.setX v).breakpoints = s.breakpoints := rfl
@[simp] theorem State.setX_cancelRequested : (s.setX v).cancelRequested = s.cancelRequested := rfl
@[simp] theorem State.setX_irqLine : (s.setX v).irqLine = s.irqLine := rfl
@[simp] theorem State.setX_mem : (s.setX v).mem = s.mem := rfl
@[simp] theorem State.setX_pageModes : (s.setX v).pageModes = s.pageModes := rfl
@[simp] theorem State.setX_readHooks : (s.setX v).readHooks = s.readHooks := rfl
@[simp] theorem State.setX_writeHooks : (s.setX v).writeHooks = s.writeHooks := rfl
@[simp] theorem State.setX_dev : (s.setX v).dev = s.dev := rfl
@[simp] theorem State.setX_draws : (s.setX v).draws = s.draws := rfl
end

section
variable (v : Byte)
@[simp] theorem State.setY_cfg : (s.setY v).cfg = s.cfg := rfl
@[simp] theorem State.setY_a : (s.setY v).a = s.a := rfl
@[simp] theorem State.setY_x : (s.setY v).x = s.x := rfl
@[simp] theorem State.setY_y : (s.setY v).y = v := rfl
@[simp] theorem State.setY_sp : (s.setY v).sp = s.sp := rfl
@[simp] theorem State.setY_pc : (s.setY v).pc = s.pc := rfl
@[simp] theorem State.setY_p : (s.setY v).p = s.p := rfl
@[simp] theorem State.setY_totalCycles : (s.setY v).totalCycles = s.totalCycles := rfl
@[simp] theorem State.setY_breakpoints : (s.setY v).breakpoints = s.breakpoints := rfl
@[simp] theorem State.setY_cancelRequested : (s.setY v).cancelRequested = s.cancelRequested := rfl
@[simp] theorem State.setY_irqLine : (s.setY v).irqLine = s.irqLine := rfl
@[simp] theorem State.setY_mem : (s.setY v).mem = s.mem := rfl
@[simp] theorem State.setY_pageModes : (s.setY v).pageModes = s.pageModes := rfl
@[simp] theorem State.setY_readHooks : (s.setY v).readHooks = s.readHooks := rfl
@[simp] theorem State.setY_writeHooks : (s.setY v).writeHooks = s.writeHooks := rfl
@[simp] theorem State.setY_dev : (s.setY v).dev = s.dev := rfl
@[simp] theorem State.setY_draws : (s.setY v).draws = s.draws := rfl
end

section
variable (v : Byte)
@[simp] theorem State.setSp_cfg : (s.setSp v).cfg = s.cfg := rfl
@[simp] theorem State.setSp_a : (s.setSp v).a = s.a := rfl
@[simp] theorem State.setSp_x : (s.setSp v).x = s.x := rfl
@[simp] theorem State.setSp_y : (s.setSp v).y = s.y := rfl
@[simp] theorem State.setSp_sp : (s.setSp v).sp = v := rfl
@[simp] theorem State.setSp_pc : (s.setSp v).pc = s.pc := rfl
@[simp] theorem State.setSp_p : (s.setSp v).p = s.p := rfl
@[simp] theorem State.setSp_totalCycles : (s.setSp v).totalCycles = s.totalCycles := rfl
@[simp] theorem State.setSp_breakpoints : (s.setSp v).breakpoints = s.breakpoints := rfl
@[simp] theorem State.setSp_cancelRequested : (s.setSp v).cancelRequested = s.cancelRequested := rfl
@[simp] theorem State.setSp_irqLine : (s.setSp v).irqLine = s.irqLine := rfl
@[simp] theorem State.setSp_mem : (s.setSp v).mem = s.mem := rfl
@[simp] theorem State.setSp_pageModes : (s.setSp v).pageModes = s.pageModes := rfl
@[simp] theorem State.setSp_readHooks : (s.setSp v).readHooks = s.readHooks := rfl
@[simp] theorem State.setSp_writeHooks : (s.setSp v).writeHooks = s.writeHooks := rfl
@[simp] theorem State.setSp_dev : (s.setSp v).dev = s.dev := rfl
@[simp] theorem State.setSp_draws : (s.setSp v).draws = s.draws := rfl
end

section
variable (v : Word)
@[simp] theorem State.setPc_cfg : (s.setPc v).cfg = s.cfg := rfl
@[simp] theorem State.setPc_a : (s.setPc v).a = s.a := rfl
@[simp] theorem State.setPc_x : (s.setPc v).x = s.x := rfl
@[simp] theorem State.setPc_y : (s.setPc v).y = s.y := rfl
@[simp] theorem State.setPc_sp : (s.setPc v).sp = s.sp := rfl
@[simp] theorem State.setPc_pc : (s.setPc v).pc = v := rfl
@[simp] theorem State.setPc_p : (s.setPc v).p = s.p := rfl
@[simp] theorem State.setPc_totalCycles : (s.setPc v).totalCycles = s.totalCycles := rfl
@[simp] theorem State.setPc_breakpoints : (s.setPc v).breakpoints = s.breakpoints := rfl
@[simp] theorem State.setPc_cancelRequested : (s.setPc v).cancelRequested = s.cancelRequested := rfl
@[simp] theorem State.setPc_irqLine : (s.setPc v).irqLine = s.irqLine := rfl
@[simp] theorem State.setPc_mem : (s.setPc v).mem = s.mem := rfl
@[simp] theorem State.setPc_pageModes : (s.setPc v).pageModes = s.pageModes := rfl
@[simp] theorem State.setPc_readHooks : (s.setPc v).readHooks = s.readHooks := rfl
@[simp] theorem State.setPc_writeHooks : (s.setPc v).writeHooks = s.writeHooks := rfl
@[simp] theorem State.setPc_dev : (s.setPc v).dev = s.dev := rfl
@[simp] theorem State.setPc_draws : (s.setPc v).draws = s.draws := rfl
end

section
variable (v : Flags)
@[simp] theorem State.setP_cfg : (s.setP v).cfg = s.cfg := rfl
@[simp] theorem State.setP_a : (s.setP v).a = s.a := rfl
@[simp] theorem State.setP_x : (s.setP v).x = s.x := rfl
@[simp] theorem State.setP_y : (s.setP v).y = s.y := rfl
@[simp] theorem State.setP_sp : (s.setP v).sp = s.sp := rfl
@[simp] theorem State.setP_pc : (s.setP v).pc = s.pc := rfl
@[simp] theorem State.setP_p : (s.setP v).p = v := rfl
@[simp] theorem State.setP_totalCycles : (s.setP v).totalCycles = s.totalCycles := rfl
@[simp] theorem State.setP_breakpoints : (s.setP v).breakpoints = s.breakpoints := rfl
@[simp] theorem State.setP_cancelRequested : (s.setP v).cancelRequested = s.cancelRequested := rfl
@[simp] theorem State.setP_irqLine : (s.setP v).irqLine = s.irqLine := rfl
@[simp] theorem State.setP_mem : (s.setP v).mem = s.mem := rfl
@[simp] theorem State.setP_pageModes : (s.setP v).pageModes = s.pageModes := rfl
@[simp] theorem State.setP_readHooks : (s.setP v).readHooks = s.readHooks := rfl
@[simp] theorem State.setP_writeHooks : (s.setP v).writeHooks = s.writeHooks := rfl
@[simp] theorem State.setP_dev : (s.setP v).dev = s.dev := rfl
@[simp] theorem State.setP_draws : (s.setP v).draws = s.draws := rfl
end

section
variable (v : List Host.Cell)
@[simp] theorem State.setMem_cfg : (s.setMem v).cfg = s.cfg := rfl
@[simp] theorem State.setMem_a : (s.setMem v).a = s.a := rfl
@[simp] theorem State.setMem_x : (s.setMem v).x = s.x := rfl
@[simp] theorem State.setMem_y : (s.setMem v).y = s.y := rfl
@[simp] theorem State.setMem_sp : (s.setMem v).sp = s.sp := rfl
@[simp] theorem State.setMem_pc : (s.setMem v).pc = s.pc := rfl
@[simp] theorem State.setMem_p : (s.setMem v).p = s.p := rfl
@[simp] theorem State.setMem_totalCycles : (s.setMem v).totalCycles = s.totalCycles := rfl
@[simp] theorem State.setMem_breakpoints : (s.setMem v).breakpoints = s.breakpoints := rfl
@[simp] theorem State.setMem_cancelRequested : (s.setMem v).cancelRequested = s.cancelRequested := rfl
@[simp] theorem State.setMem_irqLine : (s.setMem v).irqLine = s.irqLine := rfl
@[simp] theorem State.setMem_mem : (s.setMem v).mem = v := rfl
@[simp] theorem State.setMem_pageModes : (s.setMem v).pageModes = s.pageModes := rfl
@[simp] theorem State.setMem_readHooks : (s.setMem v).readHooks = s.readHooks := rfl
@[simp] theorem State.setMem_writeHooks : (s.setMem v).writeHooks = s.writeHooks := rfl
@[simp] theorem State.setMem_dev : (s.setMem v).dev = s.dev := rfl
@[simp] theorem State.setMem_draws : (s.setMem v).draws = s.draws := rfl
end

section
variable (v : Devices)
@[simp] theorem State.setDev_cfg : (s.setDev v).cfg = s.cfg := rfl
@[simp] theorem State.setDev_a : (s.setDev v).a = s.a := rfl
@[simp] theorem State.setDev_x : (s.setDev v).x = s.x := rfl
@[simp] theorem State.setDev_y : (s.setDev v).y = s.y := rfl
@[simp] theorem State.setDev_sp : (s.setDev v).sp = s.sp := rfl
@[simp] theorem State.setDev_pc : (s.setDev v).pc = s.pc := rfl
@[simp] theorem State.setDev_p : (s.setDev v).p = s.p := rfl
@[simp] theorem State.setDev_totalCycles : (s.setDev v).totalCycles = s.totalCycles := rfl
@[simp] theorem State.setDev_breakpoints : (s.setDev v).breakpoints = s.breakpoints := rfl
@[simp] theorem State.setDev_cancelRequested : (s.setDev v).cancelRequested = s.cancelRequested := rfl
@[simp] theorem State.setDev_irqLine : (s.setDev v).irqLine = s.irqLine := rfl
@[simp] theorem State.setDev_mem : (s.setDev v).mem = s.mem := rfl
@[simp] theorem State.setDev_pageModes : (s.setDev v).pageModes = s.pageModes := rfl
@[simp] theorem State.setDev_readHooks : (s.setDev v).readHooks = s.readHooks := rfl
@[simp] theorem State.setDev_writeHooks : (s.setDev v).writeHooks = s.writeHooks := rfl
@[simp] theorem State.setDev_dev : (s.setDev v).dev = v := rfl
@[simp] theorem State.setDev_draws : (s.setDev v).draws = s.draws := rfl
end

section
variable (v : Nat)
@[simp] theorem State.charge_cfg : (s.charge v).cfg = s.cfg := rfl
@[simp] theorem State.charge_a : (s.charge v).a = s.a := rfl
@[simp] theorem State.charge_x : (s.charge v).x = s.x := rfl
@[simp] theorem State.charge_y : (s.charge v).y = s.y := rfl
@[simp] theorem State.charge_sp : (s.charge v).sp = s.sp := rfl
@[simp] theorem State.charge_pc : (s.charge v).pc = s.pc := rfl
@[simp] theorem State.charge_p : (s.charge v).p = s.p := rfl
@[simp] theorem State.charge_totalCycles : (s.charge v).totalCycles = s.totalCycles + v := rfl
@[simp] theorem State.charge_breakpoints : (s.charge v).breakpoints = s.breakpoints := rfl
@[simp] theorem State.charge_cancelRequested : (s.charge v).cancelRequested = s.cancelRequested := rfl
@[simp] theorem State.charge_irqLine : (s.charge v).irqLine = s.irqLine := rfl
@[simp] theorem State.charge_mem : (s.charge v).mem = s.mem := rfl
@[simp] theorem State.charge_pageModes : (s.charge v).pageModes = s.pageModes := rfl
@[simp] theorem State.charge_readHooks : (s.charge v).readHooks = s.readHooks := rfl
@[simp] theorem State.charge_writeHooks : (s.charge v).writeHooks = s.writeHooks := rfl
@[simp] theorem State.charge_dev : (s.charge v).dev = s.dev := rfl
@[simp] theorem State.charge_draws : (s.charge v).draws = s.draws := rfl
end

section
variable (v : Nat)
@[simp] theorem State.advanceDraws_cfg : (s.advanceDraws v).cfg = s.cfg := rfl
@[simp] theorem State.advanceDraws_a : (s.advanceDraws v).a = s.a := rfl
@[simp] theorem State.advanceDraws_x : (s.advanceDraws v).x = s.x := rfl
@[simp] theorem State.advanceDraws_y : (s.advanceDraws v).y = s.y := rfl
@[simp] theorem State.advanceDraws_sp : (s.advanceDraws v).sp = s.sp := rfl
@[simp] theorem State.advanceDraws_pc : (s.advanceDraws v).pc = s.pc := rfl
@[simp] theorem State.advanceDraws_p : (s.advanceDraws v).p = s.p := rfl
@[simp] theorem State.advanceDraws_totalCycles : (s.advanceDraws v).totalCycles = s.totalCycles := rfl
@[simp] theorem State.advanceDraws_breakpoints : (s.advanceDraws v).breakpoints = s.breakpoints := rfl
@[simp] theorem State.advanceDraws_cancelRequested : (s.advanceDraws v).cancelRequested = s.cancelRequested := rfl
@[simp] theorem State.advanceDraws_irqLine : (s.advanceDraws v).irqLine = s.irqLine := rfl
@[simp] theorem State.advanceDraws_mem : (s.advanceDraws v).mem = s.mem := rfl
@[simp] theorem State.advanceDraws_pageModes : (s.advanceDraws v).pageModes = s.pageModes := rfl
@[simp] theorem State.advanceDraws_readHooks : (s.advanceDraws v).readHooks = s.readHooks := rfl
@[simp] theorem State.advanceDraws_writeHooks : (s.advanceDraws v).writeHooks = s.writeHooks := rfl
@[simp] theorem State.advanceDraws_dev : (s.advanceDraws v).dev = s.dev := rfl
@[simp] theorem State.advanceDraws_draws : (s.advanceDraws v).draws = s.draws + v := rfl
end

/-- An update with the value a field holds already changes nothing. -/
@[simp] theorem State.setA_self : s.setA s.a = s := rfl
@[simp] theorem State.setX_self : s.setX s.x = s := rfl
@[simp] theorem State.setY_self : s.setY s.y = s := rfl
@[simp] theorem State.setSp_self : s.setSp s.sp = s := rfl
@[simp] theorem State.setPc_self : s.setPc s.pc = s := rfl
@[simp] theorem State.setP_self : s.setP s.p = s := rfl
@[simp] theorem State.setMem_self : s.setMem s.mem = s := rfl
@[simp] theorem State.setDev_self : s.setDev s.dev = s := rfl

section
variable (v : Byte) (c : Bool) (p : Flags)
@[simp] theorem Flags.setNZ_n : (p.setNZ v).n = v.getLsbD 7 := rfl
@[simp] theorem Flags.setNZ_z : (p.setNZ v).z = (v == 0) := rfl
@[simp] theorem Flags.setNZ_v : (p.setNZ v).v = p.v := rfl
@[simp] theorem Flags.setNZ_b : (p.setNZ v).b = p.b := rfl
@[simp] theorem Flags.setNZ_d : (p.setNZ v).d = p.d := rfl
@[simp] theorem Flags.setNZ_i : (p.setNZ v).i = p.i := rfl
@[simp] theorem Flags.setNZ_c : (p.setNZ v).c = p.c := rfl
end

section
variable (w : Word) (cost : Nat)
@[simp] theorem complete_cfg : (complete w cost s).cfg = s.cfg := rfl
@[simp] theorem complete_a : (complete w cost s).a = s.a := rfl
@[simp] theorem complete_x : (complete w cost s).x = s.x := rfl
@[simp] theorem complete_y : (complete w cost s).y = s.y := rfl
@[simp] theorem complete_sp : (complete w cost s).sp = s.sp := rfl
@[simp] theorem complete_pc : (complete w cost s).pc = w := rfl
@[simp] theorem complete_p : (complete w cost s).p = s.p := rfl
@[simp] theorem complete_totalCycles : (complete w cost s).totalCycles = s.totalCycles + cost := rfl
@[simp] theorem complete_breakpoints : (complete w cost s).breakpoints = s.breakpoints := rfl
@[simp] theorem complete_cancelRequested : (complete w cost s).cancelRequested = s.cancelRequested := rfl
@[simp] theorem complete_irqLine : (complete w cost s).irqLine = s.irqLine := rfl
@[simp] theorem complete_mem : (complete w cost s).mem = s.mem := rfl
@[simp] theorem complete_pageModes : (complete w cost s).pageModes = s.pageModes := rfl
@[simp] theorem complete_readHooks : (complete w cost s).readHooks = s.readHooks := rfl
@[simp] theorem complete_writeHooks : (complete w cost s).writeHooks = s.writeHooks := rfl
@[simp] theorem complete_dev : (complete w cost s).dev = s.dev := rfl
@[simp] theorem complete_draws : (complete w cost s).draws = s.draws := rfl
end

end Sys2Proof.Machine
end

