-- ==== Sys2Proof/Laws/Bus.lean ====
section
/-! SUPPORT. What the bus and the stack can do, said once: `Evolves` relates a state to one that bus
accesses and register updates can lead to, and each shared operation has a lemma that says all it can
change (spec/20_memory.md R62 to R66; spec/35_execution.md R140 to R142). -/

namespace Sys2Proof.Machine

/-! ### Results in `Except` -/

theorem bind_ok {α β : Type} {r : Except Fault α} {k : α → Except Fault β} {b : β}
    (h : (r >>= k) = .ok b) : ∃ a, r = .ok a ∧ k a = .ok b := by
  cases r with
  | error e => cases h
  | ok a => exact ⟨a, rfl, h⟩

theorem outcome_next {r : Except Fault State} {t : State} (h : outcome r = .next t) : r = .ok t := by
  cases r with
  | error e => cases h
  | ok a => cases h; rfl

/-! ### What a bus access may change -/

/-- The devices are good: the drive in its ranges, the peripherals' states in canonical form. -/
def Devices.ok (cfg : Config) (d : Devices) : Prop :=
  d.drive.wf cfg = true ∧ Sparse.wfFrom 0 0 d.extra = true

/-- What bus accesses in state `s` can make of the devices: good devices stay good, and without hooks
nothing happens to them. -/
def DevStep (s : State) (d : Devices) : Prop :=
  (s.dev.ok s.cfg → d.ok s.cfg) ∧ (s.readHooks = [] → s.writeHooks = [] → d = s.dev)

theorem DevStep.refl (s : State) : DevStep s s.dev := ⟨id, fun _ _ => rfl⟩

theorem DevStep.trans {s : State} {d e : Devices} (h : DevStep s d) (k : DevStep (s.setDev d) e) : DevStep s e :=
  ⟨fun x => k.1 (h.1 x), fun hr hw => (k.2 hr hw).trans (h.2 hr hw)⟩

/-- `t` comes from `s` by bus accesses and register updates: parameters, hooks, page modes, breakpoints,
cancellation and the IRQ line are as they were, good devices and memory stay good, and without hooks the
devices are as they were. -/
structure Evolves (s t : State) : Prop where
  cfg : t.cfg = s.cfg
  pageModes : t.pageModes = s.pageModes
  readHooks : t.readHooks = s.readHooks
  writeHooks : t.writeHooks = s.writeHooks
  breakpoints : t.breakpoints = s.breakpoints
  cancelRequested : t.cancelRequested = s.cancelRequested
  irqLine : t.irqLine = s.irqLine
  devOk : s.dev.ok s.cfg → t.dev.ok t.cfg
  memWf : Mem.wf s.mem = true → Mem.wf t.mem = true
  idle : s.readHooks = [] → s.writeHooks = [] → t.dev = s.dev

theorem Evolves.refl (s : State) : Evolves s s :=
  ⟨rfl, rfl, rfl, rfl, rfl, rfl, rfl, id, id, fun _ _ => rfl⟩

theorem Evolves.trans {s t u : State} (h : Evolves s t) (k : Evolves t u) : Evolves s u :=
  ⟨k.cfg.trans h.cfg, k.pageModes.trans h.pageModes, k.readHooks.trans h.readHooks,
    k.writeHooks.trans h.writeHooks, k.breakpoints.trans h.breakpoints,
    k.cancelRequested.trans h.cancelRequested, k.irqLine.trans h.irqLine,
    fun x => k.devOk (h.devOk x), fun x => k.memWf (h.memWf x),
    fun hr hw => (k.idle (h.readHooks.trans hr) (h.writeHooks.trans hw)).trans (h.idle hr hw)⟩

theorem evolves_setA (s : State) (v : Byte) : Evolves s (s.setA v) :=
  ⟨rfl, rfl, rfl, rfl, rfl, rfl, rfl, id, id, fun _ _ => rfl⟩
theorem evolves_setX (s : State) (v : Byte) : Evolves s (s.setX v) :=
  ⟨rfl, rfl, rfl, rfl, rfl, rfl, rfl, id, id, fun _ _ => rfl⟩
theorem evolves_setY (s : State) (v : Byte) : Evolves s (s.setY v) :=
  ⟨rfl, rfl, rfl, rfl, rfl, rfl, rfl, id, id, fun _ _ => rfl⟩
theorem evolves_setSp (s : State) (v : Byte) : Evolves s (s.setSp v) :=
  ⟨rfl, rfl, rfl, rfl, rfl, rfl, rfl, id, id, fun _ _ => rfl⟩
theorem evolves_setP (s : State) (p : Flags) : Evolves s (s.setP p) :=
  ⟨rfl, rfl, rfl, rfl, rfl, rfl, rfl, id, id, fun _ _ => rfl⟩
theorem evolves_complete (s : State) (w : Word) (n : Nat) : Evolves s (complete w n s) :=
  ⟨rfl, rfl, rfl, rfl, rfl, rfl, rfl, id, id, fun _ _ => rfl⟩
theorem evolves_advanceDraws (s : State) (k : Nat) : Evolves s (s.advanceDraws k) :=
  ⟨rfl, rfl, rfl, rfl, rfl, rfl, rfl, id, id, fun _ _ => rfl⟩
theorem evolves_setDev {s : State} {d : Devices} (h : DevStep s d) : Evolves s (s.setDev d) :=
  ⟨rfl, rfl, rfl, rfl, rfl, rfl, rfl, h.1, id, h.2⟩
theorem evolves_setMem {s : State} {m : List Host.Cell} (h : Mem.wf s.mem = true → Mem.wf m = true) :
    Evolves s (s.setMem m) := ⟨rfl, rfl, rfl, rfl, rfl, rfl, rfl, id, h, fun _ _ => rfl⟩

/-! ### Callbacks and scans -/

theorem runCallback_ok {cfg : Config} (cb : Callback) (a : Word) (v : Option Byte) {d : Devices}
    (h : d.ok cfg) : (runCallback cfg cb a v d).2.ok cfg := by
  cases cb with
  | diskStrobe => exact ⟨diskAccess_wf a v h.1, h.2⟩
  | diskRom => exact h
  | diskRomWrite => exact h
  | const r => exact h
  | recorder => exact h
  | extra dev fn => exact ⟨h.1, Sparse.set_wfFrom 0 h.2 (Nat.zero_le _)⟩

theorem scanRead_ok {cfg : Config} {a : Word} {hs : List Hook} {d : Devices} {r : Option Byte}
    {d' : Devices} (h : scanRead cfg a hs d = .ok (r, d')) (hd : d.ok cfg) : d'.ok cfg := by
  induction hs generalizing d with
  | nil => cases h; exact hd
  | cons k ks ih =>
    simp only [scanRead] at h
    split at h
    · split at h
      · exact ih h (runCallback_ok _ _ _ hd)
      · split at h
        · cases h; exact runCallback_ok _ _ _ hd
        · cases h
    · exact ih h hd

theorem scanWrite_ok {cfg : Config} (a : Word) (v : Byte) (hs : List Hook) {d : Devices}
    (hd : d.ok cfg) : (scanWrite cfg a v hs d).2.ok cfg := by
  induction hs generalizing d with
  | nil => exact hd
  | cons k ks ih =>
    simp only [scanWrite]
    split
    · split
      · exact ih (runCallback_ok _ _ _ hd)
      · exact runCallback_ok _ _ _ hd
    · exact ih hd

/-- A scan in which no hook covers the address goes on to memory and runs nothing. -/
theorem scanRead_uncovered (cfg : Config) (a : Word) {hs : List Hook} (d : Devices)
    (h : hs.all (fun k => !k.covers a) = true) : scanRead cfg a hs d = .ok (none, d) := by
  induction hs with
  | nil => rfl
  | cons k ks ih =>
    simp only [List.all_cons, Bool.and_eq_true, Bool.not_eq_true'] at h
    simp only [scanRead, h.1, Bool.false_eq_true, if_false]
    exact ih h.2

theorem scanWrite_uncovered (cfg : Config) (a : Word) (v : Byte) {hs : List Hook} (d : Devices)
    (h : hs.all (fun k => !k.covers a) = true) : scanWrite cfg a v hs d = (false, d) := by
  induction hs with
  | nil => rfl
  | cons k ks ih =>
    simp only [List.all_cons, Bool.and_eq_true, Bool.not_eq_true'] at h
    simp only [scanWrite, h.1, Bool.false_eq_true, if_false]
    exact ih h.2

/-- Whether a read is plain depends on the read hooks and the page modes alone. -/
theorem plainRead_congr {s t : State} (hh : t.readHooks = s.readHooks) (hp : t.pageModes = s.pageModes)
    (a : Word) : t.plainRead a = s.plainRead a := by
  unfold State.plainRead State.pageMode
  rw [hh, hp]

/-- Whether a write is plain depends on the write hooks and the page modes alone. -/
theorem plainWrite_congr {s t : State} (hh : t.writeHooks = s.writeHooks) (hp : t.pageModes = s.pageModes)
    (a : Word) : t.plainWrite a = s.plainWrite a := by
  unfold State.plainWrite State.pageMode
  rw [hh, hp]

/-! ### Reads -/

/-- A read changes the devices and nothing else. -/
theorem readByte_frame {a : Word} {s t : State} {v : Byte} (h : readByte a s = .ok (v, t)) :
    ∃ d, t = s.setDev d ∧ DevStep s d := by
  simp only [readByte] at h
  obtain ⟨⟨r, d⟩, hr, h⟩ := bind_ok h
  refine ⟨d, ?_, scanRead_ok hr, fun hh _ => ?_⟩
  · cases r <;> (cases h; rfl)
  · rw [hh] at hr
    cases hr
    rfl

theorem readByte_evolves {a : Word} {s t : State} {v : Byte} (h : readByte a s = .ok (v, t)) :
    Evolves s t := by
  obtain ⟨d, rfl, hd⟩ := readByte_frame h
  exact evolves_setDev hd

/-- Where no hook covers the address and the page is mapped, a read is a read of memory. -/
theorem readByte_plain {a : Word} {s : State} (h : s.plainRead a = true) :
    readByte a s = .ok (Mem.read s.mem a, s) := by
  simp only [State.plainRead, Bool.and_eq_true, decide_eq_true_eq] at h
  simp only [readByte, scanRead_uncovered s.cfg a s.dev h.1]
  have hp := h.2
  simp only [bind, Except.bind, rawRead]
  cases hm : s.pageMode a <;> simp_all

/-- Two reads in a row change the devices and nothing else. -/
theorem readPair_frame {lo hi : Word} {s t : State} {w : Word} (h : readPair lo hi s = .ok (w, t)) :
    ∃ d, t = s.setDev d ∧ DevStep s d := by
  simp only [readPair] at h
  obtain ⟨⟨l, s1⟩, h1, h⟩ := bind_ok h
  obtain ⟨⟨u, s2⟩, h2, h⟩ := bind_ok h
  cases h
  obtain ⟨d1, rfl, hd1⟩ := readByte_frame h1
  obtain ⟨d2, rfl, hd2⟩ := readByte_frame h2
  exact ⟨d2, rfl, hd1.trans hd2⟩

theorem readPair_plain {lo hi : Word} {s : State} (hl : s.plainRead lo = true) (hh : s.plainRead hi = true) :
    readPair lo hi s = .ok (joinBytes (Mem.read s.mem hi) (Mem.read s.mem lo), s) := by
  simp [readPair, readByte_plain hl, readByte_plain hh, bind, Except.bind]

/-! ### Writes -/

/-- A write changes the devices and one byte of memory at most. -/
theorem writeByte_frame (a : Word) (v : Byte) (s : State) :
    ∃ d m, writeByte a v s = (s.setDev d).setMem m ∧ DevStep s d ∧
      (Mem.wf s.mem = true → Mem.wf m = true) ∧ ∀ b, b ≠ a → Mem.read m b = Mem.read s.mem b := by
  refine ⟨(scanWrite s.cfg a v s.writeHooks s.dev).2, (writeByte a v s).mem, ?_,
    ⟨scanWrite_ok a v _, fun _ hh => by rw [hh]; rfl⟩, ?_, ?_⟩
  all_goals
    simp only [writeByte]
    split
    · first
        | rfl
        | exact id
        | exact fun _ _ => rfl
    · simp only [rawWrite]
      split
      · first
          | rfl
          | exact Mem.write_wf a v
          | exact fun b hb => Mem.read_write_other _ v hb
      · first
          | rfl
          | exact id
          | exact fun _ _ => rfl
      · first
          | rfl
          | exact id
          | exact fun _ _ => rfl

theorem writeByte_evolves (a : Word) (v : Byte) (s : State) : Evolves s (writeByte a v s) := by
  obtain ⟨d, m, h, hd, hm, -⟩ := writeByte_frame a v s
  rw [h]
  exact (evolves_setDev hd).trans (evolves_setMem hm)

/-- Where no hook covers the address and the page is ReadWrite, a write is a write to memory. -/
theorem writeByte_plain {a : Word} (v : Byte) {s : State} (h : s.plainWrite a = true) :
    writeByte a v s = s.setMem (Mem.write s.mem a v) := by
  simp only [State.plainWrite, Bool.and_eq_true, decide_eq_true_eq] at h
  simp only [writeByte, scanWrite_uncovered s.cfg a v s.dev h.1, rawWrite]
  simp [h.2]

/-! ### The stack -/

/-- A push changes SP, the devices and the one byte SP named. -/
theorem push_frame (v : Byte) (s : State) :
    ∃ d m, push v s = ((s.setDev d).setMem m).setSp (s.sp - 1) ∧ DevStep s d ∧
      (Mem.wf s.mem = true → Mem.wf m = true) ∧
      ∀ b, b ≠ stackAddr s.sp → Mem.read m b = Mem.read s.mem b := by
  obtain ⟨d, m, h, hd, hm, ho⟩ := writeByte_frame (stackAddr s.sp) v s
  exact ⟨d, m, by rw [push, h], hd, hm, ho⟩

theorem push_evolves (v : Byte) (s : State) : Evolves s (push v s) :=
  (writeByte_evolves _ v s).trans (evolves_setSp _ _)

theorem push16_evolves (w : Word) (s : State) : Evolves s (push16 w s) :=
  (push_evolves _ s).trans (push_evolves _ _)

theorem push_sp (v : Byte) (s : State) : (push v s).sp = s.sp - 1 := rfl

/-- A 16-bit push changes SP, the devices and the two bytes SP named. -/
theorem push16_frame (w : Word) (s : State) :
    ∃ d m, push16 w s = ((s.setDev d).setMem m).setSp (s.sp - 1 - 1) ∧
      ∀ b, b ≠ stackAddr s.sp → b ≠ stackAddr (s.sp - 1) → Mem.read m b = Mem.read s.mem b := by
  obtain ⟨d1, m1, h1, -, -, o1⟩ := push_frame (hiByte w) s
  obtain ⟨d2, m2, h2, -, -, o2⟩ := push_frame (loByte w) (push (hiByte w) s)
  refine ⟨d2, m2, ?_, fun b hb1 hb2 => ?_⟩
  · rw [push16, h2, h1]; rfl
  · rw [o2 b (by rw [push_sp]; exact hb2), h1]
    exact o1 b hb1

/-- A pull changes SP and the devices. -/
theorem pull_frame {s t : State} {v : Byte} (h : pull s = .ok (v, t)) :
    ∃ d, t = (s.setSp (s.sp + 1)).setDev d ∧ DevStep s d :=
  readByte_frame h

theorem pull_evolves {s t : State} {v : Byte} (h : pull s = .ok (v, t)) : Evolves s t := by
  obtain ⟨d, rfl, hd⟩ := pull_frame h
  exact (evolves_setSp _ _).trans (evolves_setDev hd)

/-- A 16-bit pull changes SP and the devices. -/
theorem pull16_frame {s t : State} {w : Word} (h : pull16 s = .ok (w, t)) :
    ∃ d, t = (s.setSp (s.sp + 1 + 1)).setDev d ∧ DevStep s d := by
  simp only [pull16] at h
  obtain ⟨⟨l, s1⟩, h1, h⟩ := bind_ok h
  obtain ⟨⟨u, s2⟩, h2, h⟩ := bind_ok h
  cases h
  obtain ⟨d1, rfl, hd1⟩ := pull_frame h1
  obtain ⟨d2, rfl, hd2⟩ := pull_frame h2
  exact ⟨d2, rfl, hd1.trans hd2⟩

theorem pull16_evolves {s t : State} {w : Word} (h : pull16 s = .ok (w, t)) : Evolves s t := by
  obtain ⟨d, rfl, hd⟩ := pull16_frame h
  exact (evolves_setSp _ _).trans (evolves_setDev hd)

/-- Where the stack slot is plain, a push stores there. -/
theorem push_plain {s : State} (v : Byte) (h : s.plainWrite (stackAddr s.sp) = true) :
    push v s = (s.setMem (Mem.write s.mem (stackAddr s.sp) v)).setSp (s.sp - 1) := by
  rw [push, writeByte_plain v h]

/-- Where the stack slot is plain, a pull reads it. -/
theorem pull_plain {s : State} (h : s.plainRead (stackAddr (s.sp + 1)) = true) :
    pull s = .ok (Mem.read s.mem (stackAddr (s.sp + 1)), s.setSp (s.sp + 1)) :=
  readByte_plain (s := s.setSp (s.sp + 1)) h

end Sys2Proof.Machine
end

