-- ==== Sys2Proof/Laws/Exec.lean ====
section
/-! SUPPORT. What each access class, trap and fetch can do, said once per shared operation
(spec/35_execution.md R124 to R134; spec/44_control_transfer.md; spec/60_exceptions.md R506): if it answers
a next state, what that state is, and that it `Evolves`. -/

namespace Sys2Proof.Machine

/-! ### Operands -/

/-- Finding an effective address changes the devices and nothing else. -/
theorem effAddr_frame {m : MemMode} {s t : State} {e : Word × Bool} (h : effAddr m s = .ok (e, t)) :
    ∃ d, t = s.setDev d ∧ DevStep s d := by
  cases m with
  | zp b => cases h; exact ⟨s.dev, rfl, .refl s⟩
  | zpx b => cases h; exact ⟨s.dev, rfl, .refl s⟩
  | zpy b => cases h; exact ⟨s.dev, rfl, .refl s⟩
  | abs w => cases h; exact ⟨s.dev, rfl, .refl s⟩
  | absx w => cases h; exact ⟨s.dev, rfl, .refl s⟩
  | absy w => cases h; exact ⟨s.dev, rfl, .refl s⟩
  | izx b =>
    simp only [effAddr, zpPointer] at h
    obtain ⟨⟨p, s1⟩, h1, h⟩ := bind_ok h
    cases h
    exact readPair_frame h1
  | izy b =>
    simp only [effAddr, zpPointer] at h
    obtain ⟨⟨p, s1⟩, h1, h⟩ := bind_ok h
    cases h
    exact readPair_frame h1

/-- Reading an operand changes the devices and nothing else. -/
theorem readOperand_frame {o : ReadOperand} {s t : State} {e : Byte × Bool}
    (h : readOperand o s = .ok (e, t)) : ∃ d, t = s.setDev d ∧ DevStep s d := by
  cases o with
  | imm v => cases h; exact ⟨s.dev, rfl, .refl s⟩
  | mem m =>
    simp only [readOperand] at h
    obtain ⟨⟨ea, s1⟩, h1, h⟩ := bind_ok h
    obtain ⟨⟨v, s2⟩, h2, h⟩ := bind_ok h
    cases h
    obtain ⟨d1, rfl, hd1⟩ := effAddr_frame h1
    obtain ⟨d2, rfl, hd2⟩ := readByte_frame h2
    exact ⟨d2, rfl, hd1.trans hd2⟩

theorem evolves_of_setDev {s t : State} (h : ∃ d, t = s.setDev d ∧ DevStep s d) :
    Evolves s t := by
  obtain ⟨d, rfl, hd⟩ := h
  exact evolves_setDev hd

/-! ### Access classes -/

/-- A read-class instruction runs exactly when its operand can be read. -/
theorem readClass_next_iff {o : ReadOperand} {cycles : Nat} {pen : Bool} {f : Byte → State → State}
    {s t : State} : readClass o cycles pen f s = .next t ↔
      ∃ m crossed s1, readOperand o s = .ok ((m, crossed), s1) ∧
        t = complete (s.pc + BitVec.ofNat 16 o.length) (cycles + penaltyCycles pen crossed) (f m s1) := by
  constructor
  · intro h
    obtain ⟨⟨⟨m, c⟩, s1⟩, h1, h⟩ := bind_ok (outcome_next h)
    cases h
    exact ⟨m, c, s1, h1, rfl⟩
  · rintro ⟨m, c, s1, h1, rfl⟩
    simp [readClass, h1, bind, Except.bind, outcome]

/-- A write-class instruction runs exactly when its address can be found. -/
theorem writeClass_next_iff {m : MemMode} {cycles : Nat} {v : Byte} {s t : State} :
    writeClass m cycles v s = .next t ↔
      ∃ ea crossed s1, effAddr m s = .ok ((ea, crossed), s1) ∧
        t = complete (s.pc + BitVec.ofNat 16 m.length) cycles (writeByte ea v s1) := by
  constructor
  · intro h
    obtain ⟨⟨⟨ea, c⟩, s1⟩, h1, h⟩ := bind_ok (outcome_next h)
    cases h
    exact ⟨ea, c, s1, h1, rfl⟩
  · rintro ⟨ea, c, s1, h1, rfl⟩
    simp [writeClass, h1, bind, Except.bind, outcome]

theorem rmwClass_acc (cycles : Nat) (f : RmwFn) (s : State) :
    rmwClass .acc cycles f s = .next (complete (s.pc + 1) cycles ((s.setA (f s.a s.p).1).setP (f s.a s.p).2)) :=
  rfl

/-- A read-modify-write of memory runs exactly when its address can be found and read. -/
theorem rmwClass_mem_next_iff {m : MemMode} {cycles : Nat} {f : RmwFn} {s t : State} :
    rmwClass (.mem m) cycles f s = .next t ↔
      ∃ ea crossed s1 v s2, effAddr m s = .ok ((ea, crossed), s1) ∧ readByte ea s1 = .ok (v, s2) ∧
        t = complete (s.pc + BitVec.ofNat 16 m.length) cycles
          ((writeByte ea (f v s.p).1 s2).setP (f v s.p).2) := by
  constructor
  · intro h
    obtain ⟨⟨⟨ea, c⟩, s1⟩, h1, h⟩ := bind_ok (outcome_next h)
    obtain ⟨⟨v, s2⟩, h2, h⟩ := bind_ok h
    cases h
    exact ⟨ea, c, s1, v, s2, h1, h2, rfl⟩
  · rintro ⟨ea, c, s1, v, s2, h1, h2, rfl⟩
    simp [rmwClass, h1, h2, bind, Except.bind, outcome]

theorem readClass_evolves {o : ReadOperand} {cycles : Nat} {pen : Bool} {f : Byte → State → State}
    {s t : State} (hf : ∀ m u, Evolves u (f m u)) (h : readClass o cycles pen f s = .next t) :
    Evolves s t := by
  obtain ⟨m, c, s1, h1, rfl⟩ := readClass_next_iff.1 h
  exact ((evolves_of_setDev (readOperand_frame h1)).trans (hf m s1)).trans (evolves_complete _ _ _)

theorem writeClass_evolves {m : MemMode} {cycles : Nat} {v : Byte} {s t : State}
    (h : writeClass m cycles v s = .next t) : Evolves s t := by
  obtain ⟨ea, c, s1, h1, rfl⟩ := writeClass_next_iff.1 h
  exact ((evolves_of_setDev (effAddr_frame h1)).trans (writeByte_evolves _ _ _)).trans (evolves_complete _ _ _)

theorem rmwClass_evolves {o : RmwOperand} {cycles : Nat} {f : RmwFn} {s t : State}
    (h : rmwClass o cycles f s = .next t) : Evolves s t := by
  cases o with
  | acc =>
    rw [rmwClass_acc] at h
    cases h
    exact ((evolves_setA _ _).trans (evolves_setP _ _)).trans (evolves_complete _ _ _)
  | mem m =>
    obtain ⟨ea, c, s1, v, s2, h1, h2, rfl⟩ := rmwClass_mem_next_iff.1 h
    exact (((evolves_of_setDev (effAddr_frame h1)).trans (readByte_evolves h2)).trans
      ((writeByte_evolves _ _ _).trans (evolves_setP _ _))).trans (evolves_complete _ _ _)

theorem implied_evolves {cycles : Nat} {f : State → State} {s t : State} (hf : Evolves s (f s))
    (h : implied cycles f s = .next t) : Evolves s t := by
  cases h
  exact hf.trans (evolves_complete _ _ _)

theorem branch_evolves {taken : Bool} {d : Byte} {s t : State} (h : branch taken d s = .next t) :
    Evolves s t := by
  cases h
  exact evolves_complete _ _ _

/-! ### Register effects of the read class -/

theorem loadA_evolves (v : Byte) (s : State) : Evolves s (loadA v s) :=
  (evolves_setA _ _).trans (evolves_setP _ _)
theorem loadX_evolves (v : Byte) (s : State) : Evolves s (loadX v s) :=
  (evolves_setX _ _).trans (evolves_setP _ _)
theorem loadY_evolves (v : Byte) (s : State) : Evolves s (loadY v s) :=
  (evolves_setY _ _).trans (evolves_setP _ _)

theorem writeAlu_evolves (r : AluResult) (s : State) : Evolves s (writeAlu r s) := by
  simp only [writeAlu]
  split
  · exact ((evolves_setA _ _).trans (evolves_setP _ _)).trans (evolves_advanceDraws _ _)
  · exact (evolves_setA _ _).trans (evolves_setP _ _)

/-! ### Traps -/

/-- Entering a trap: the flags B and I, SP, the devices and the three stack bytes change. -/
theorem enterTrap_frame {ret : Word} {st : Byte} {isBrk : Bool} {s t : State} {w : Word}
    (h : enterTrap ret st isBrk s = .ok (w, t)) :
    ∃ d m, t = (((s.setDev d).setMem m).setSp (s.sp - 1 - 1 - 1)).setP { s.p with i := true, b := s.p.b || isBrk } ∧
      ∀ a, a ≠ stackAddr s.sp → a ≠ stackAddr (s.sp - 1) → a ≠ stackAddr (s.sp - 1 - 1) →
        Mem.read m a = Mem.read s.mem a := by
  obtain ⟨d1, m1, h1, o1⟩ := push16_frame ret s
  obtain ⟨d2, m2, h2, -, -, o2⟩ := push_frame st (push16 ret s)
  simp only [enterTrap, read16] at h
  obtain ⟨d3, rfl, -⟩ := readPair_frame h
  rw [h1] at h2 o2
  refine ⟨d3, m2, ?_, fun a ha hb hc => ?_⟩
  · rw [h1, h2]; rfl
  · exact (o2 a hc).trans (o1 a ha hb)

theorem enterTrap_evolves {ret : Word} {st : Byte} {isBrk : Bool} {s t : State} {w : Word}
    (h : enterTrap ret st isBrk s = .ok (w, t)) : Evolves s t := by
  simp only [enterTrap, read16] at h
  exact (((push16_evolves ret s).trans (push_evolves st _)).trans (evolves_setP _ _)).trans
    (evolves_of_setDev (readPair_frame h))

/-- Leaving a trap: the flags, SP and the devices change. -/
theorem leaveTrap_frame {s t : State} {w : Word} (h : leaveTrap s = .ok (w, t)) :
    ∃ d st, t = ((s.setSp (s.sp + 1 + 1 + 1)).setDev d).setP (Flags.ofByte st) := by
  simp only [leaveTrap] at h
  obtain ⟨⟨st, s1⟩, h1, h⟩ := bind_ok h
  obtain ⟨d1, rfl, -⟩ := pull_frame h1
  obtain ⟨d2, rfl, -⟩ := pull16_frame h
  exact ⟨d2, st, rfl⟩

theorem leaveTrap_evolves {s t : State} {w : Word} (h : leaveTrap s = .ok (w, t)) : Evolves s t := by
  simp only [leaveTrap] at h
  obtain ⟨⟨st, s1⟩, h1, h⟩ := bind_ok h
  exact ((pull_evolves h1).trans (evolves_setP _ _)).trans (pull16_evolves h)

theorem takeIrq_evolves {s t : State} (h : takeIrq s = .next t) : Evolves s t := by
  obtain ⟨⟨w, s1⟩, h1, h⟩ := bind_ok (outcome_next h)
  cases h
  exact (enterTrap_evolves h1).trans (evolves_complete _ _ _)

theorem indirectTarget_evolves {ptr : Word} {s t : State} {w : Word}
    (h : indirectTarget ptr s = .ok (w, t)) : Evolves s t :=
  evolves_of_setDev (readPair_frame h)

/-! ### Fetch -/

/-- Fetching an instruction changes the devices and nothing else. -/
theorem fetch_frame {s t : State} {i : Instr} (h : fetch s = .ok (i, t)) :
    ∃ d, t = s.setDev d ∧ DevStep s d := by
  simp only [fetch] at h
  obtain ⟨⟨op, s1⟩, h1, h⟩ := bind_ok h
  obtain ⟨d1, rfl, hd1⟩ := readByte_frame h1
  revert h
  cases lookupOpcode op with
  | none => intro h; cases h
  | some r =>
    intro h
    simp only at h
    cases hf : r.form with
    | f1 j =>
      rw [hf] at h
      cases h
      exact ⟨d1, rfl, hd1⟩
    | f2 mk =>
      rw [hf] at h
      simp only [fetchOperands] at h
      obtain ⟨⟨b1, s2⟩, h2, h⟩ := bind_ok h
      cases h
      obtain ⟨d2, rfl, hd2⟩ := readByte_frame h2
      exact ⟨d2, rfl, hd1.trans hd2⟩
    | f3 mk =>
      rw [hf] at h
      simp only [fetchOperands] at h
      obtain ⟨⟨b1, s2⟩, h2, h⟩ := bind_ok h
      obtain ⟨⟨b2, s3⟩, h3, h⟩ := bind_ok h
      cases h
      obtain ⟨d2, rfl, hd2⟩ := readByte_frame h2
      obtain ⟨d3, rfl, hd3⟩ := readByte_frame h3
      exact ⟨d3, rfl, (hd1.trans hd2).trans hd3⟩

/-- A step is the IRQ entry or the execution of a fetched instruction. -/
theorem step_next {s t : State} (h : step s = .next t) :
    (irqPending s = true ∧ takeIrq s = .next t) ∨
      (irqPending s = false ∧ ∃ i s1, fetch s = .ok (i, s1) ∧ exec i s1 = .next t) := by
  simp only [step] at h
  split at h
  · next hi => exact .inl ⟨hi, h⟩
  · next hi =>
    refine .inr ⟨by simpa using hi, ?_⟩
    split at h
    · next i s1 hf => exact ⟨i, s1, hf, h⟩
    · cases h

/-- A good state that evolves stays good. -/
theorem Evolves.wf {s t : State} (h : Evolves s t) (hs : s.wf = true) : t.wf = true := by
  simp only [State.wf, Bool.and_eq_true] at hs ⊢
  obtain ⟨⟨⟨⟨⟨hc, hm⟩, hp⟩, he⟩, hd⟩, hb⟩ := hs
  have hk := h.devOk ⟨hd, he⟩
  rw [h.cfg] at hk
  exact ⟨⟨⟨⟨⟨by rw [h.cfg]; exact hc, h.memWf hm⟩, by rw [h.pageModes]; exact hp⟩, hk.2⟩,
    by rw [h.cfg]; exact hk.1⟩, by rw [h.breakpoints]; exact hb⟩

end Sys2Proof.Machine
end

