-- ==== Sys2Proof/Laws/Frame.lean ====
section
/-! SUPPORT. The shape of the next state of each access class and of each instruction with a meaning of its
own shape, as register updates of the state before: what an instruction leaves unchanged can be read off it
(spec/35_execution.md R134, R140 to R142; spec/44_control_transfer.md). -/

namespace Sys2Proof.Machine

/-- A read-class instruction changes the devices, and then what its effect changes. -/
theorem readClass_frame {o : ReadOperand} {cycles : Nat} {pen : Bool} {f : Byte → State → State}
    {s t : State} (h : readClass o cycles pen f s = .next t) :
    ∃ m crossed d, readOperand o s = .ok ((m, crossed), s.setDev d) ∧
      t = complete (s.pc + BitVec.ofNat 16 o.length) (cycles + penaltyCycles pen crossed) (f m (s.setDev d)) := by
  obtain ⟨m, c, s1, h1, rfl⟩ := readClass_next_iff.1 h
  obtain ⟨d, rfl, -⟩ := readOperand_frame h1
  exact ⟨m, c, d, h1, rfl⟩

/-- A write-class instruction changes the devices and the byte at its effective address. -/
theorem writeClass_frame {o : MemMode} {cycles : Nat} {v : Byte} {s t : State}
    (h : writeClass o cycles v s = .next t) :
    ∃ ea crossed u d m, effAddr o s = .ok ((ea, crossed), u) ∧
      t = complete (s.pc + BitVec.ofNat 16 o.length) cycles ((s.setDev d).setMem m) ∧
      ∀ a, a ≠ ea → Mem.read m a = Mem.read s.mem a := by
  obtain ⟨ea, c, u, h1, rfl⟩ := writeClass_next_iff.1 h
  obtain ⟨d1, rfl, -⟩ := effAddr_frame h1
  obtain ⟨d, m, hw, -, -, ho⟩ := writeByte_frame ea v (s.setDev d1)
  exact ⟨ea, c, _, d, m, h1, by rw [hw]; rfl, ho⟩

/-- A read-modify-write of memory changes the devices, the flags and the byte at its effective address. -/
theorem rmwClass_mem_frame {o : MemMode} {cycles : Nat} {f : RmwFn} {s t : State}
    (h : rmwClass (.mem o) cycles f s = .next t) :
    ∃ ea crossed u v d m, effAddr o s = .ok ((ea, crossed), u) ∧
      t = complete (s.pc + BitVec.ofNat 16 o.length) cycles (((s.setDev d).setMem m).setP (f v s.p).2) ∧
      ∀ a, a ≠ ea → Mem.read m a = Mem.read s.mem a := by
  obtain ⟨ea, c, u, v, u', h1, h2, rfl⟩ := rmwClass_mem_next_iff.1 h
  obtain ⟨d1, rfl, -⟩ := effAddr_frame h1
  obtain ⟨d2, rfl, -⟩ := readByte_frame h2
  obtain ⟨d, m, hw, -, -, ho⟩ := writeByte_frame ea (f v s.p).1 ((s.setDev d1).setDev d2)
  exact ⟨ea, c, _, v, d, m, h1, by rw [hw]; rfl, ho⟩

/-- A read-modify-write of the accumulator changes A and the flags. -/
theorem rmwClass_acc_frame {cycles : Nat} {f : RmwFn} {s t : State} (h : rmwClass .acc cycles f s = .next t) :
    t = complete (s.pc + 1) cycles ((s.setA (f s.a s.p).1).setP (f s.a s.p).2) := by
  rw [rmwClass_acc] at h
  cases h
  rfl

theorem implied_frame {cycles : Nat} {f : State → State} {s t : State} (h : implied cycles f s = .next t) :
    t = complete (s.pc + 1) cycles (f s) := by
  cases h
  rfl

theorem branch_frame {taken : Bool} {d : Byte} {s t : State} (h : branch taken d s = .next t) :
    ∃ pc, t = complete pc (2 + branchPenalty s.pc d taken) s := by
  cases h
  exact ⟨_, rfl⟩

/-- An addition or subtraction writes A, the flags N, V, Z and C, and the count of draws. -/
theorem writeAlu_frame (r : AluResult) (s : State) :
    ∃ n v z k, writeAlu r s =
      ((s.setA r.r).setP { s.p with n := n, v := v, z := z, c := r.c }).advanceDraws k := by
  simp only [writeAlu]
  split
  · exact ⟨_, _, _, 3, rfl⟩
  · exact ⟨_, _, _, 0, rfl⟩

theorem execJmpInd_frame {ptr : Word} {s t : State} (h : execJmpInd ptr s = .next t) :
    ∃ pc d, t = complete pc 5 (s.setDev d) := by
  obtain ⟨⟨w, s1⟩, h1, h⟩ := bind_ok (outcome_next h)
  cases h
  obtain ⟨d, rfl, -⟩ := readPair_frame h1
  exact ⟨w, d, rfl⟩

theorem execJsr_frame {addr : Word} {s t : State} (h : execJsr addr s = .next t) :
    ∃ d m, t = complete addr 6 (((s.setDev d).setMem m).setSp (s.sp - 1 - 1)) ∧
      ∀ a, a ≠ stackAddr s.sp → a ≠ stackAddr (s.sp - 1) → Mem.read m a = Mem.read s.mem a := by
  cases h
  obtain ⟨d, m, hp, ho⟩ := push16_frame (s.pc + 2) s
  exact ⟨d, m, by rw [hp], ho⟩

theorem execRts_frame {s t : State} (h : execRts s = .next t) :
    ∃ pc d, t = complete pc 6 ((s.setSp (s.sp + 1 + 1)).setDev d) := by
  obtain ⟨⟨w, s1⟩, h1, h⟩ := bind_ok (outcome_next h)
  cases h
  obtain ⟨d, rfl, -⟩ := pull16_frame h1
  exact ⟨w + 1, d, rfl⟩

theorem execRti_frame {s t : State} (h : execRti s = .next t) :
    ∃ pc d st, t = complete pc 6 (((s.setSp (s.sp + 1 + 1 + 1)).setDev d).setP (Flags.ofByte st)) := by
  obtain ⟨⟨w, s1⟩, h1, h⟩ := bind_ok (outcome_next h)
  cases h
  obtain ⟨d, st, rfl⟩ := leaveTrap_frame h1
  exact ⟨w, d, st, rfl⟩

theorem execBrk_frame {s t : State} (h : execBrk s = .next t) :
    ∃ pc d m, t = complete pc 7
        ((((s.setDev d).setMem m).setSp (s.sp - 1 - 1 - 1)).setP { s.p with i := true, b := true }) ∧
      ∀ a, a ≠ stackAddr s.sp → a ≠ stackAddr (s.sp - 1) → a ≠ stackAddr (s.sp - 1 - 1) →
        Mem.read m a = Mem.read s.mem a := by
  obtain ⟨⟨w, s1⟩, h1, h⟩ := bind_ok (outcome_next h)
  cases h
  obtain ⟨d, m, rfl, ho⟩ := enterTrap_frame h1
  exact ⟨w, d, m, by simp only [Bool.or_true], ho⟩

theorem execPha_frame {s t : State} (h : execPha s = .next t) :
    ∃ d m, t = complete (s.pc + 1) 3 (((s.setDev d).setMem m).setSp (s.sp - 1)) ∧
      ∀ a, a ≠ stackAddr s.sp → Mem.read m a = Mem.read s.mem a := by
  obtain ⟨d, m, hp, -, -, ho⟩ := push_frame s.a s
  exact ⟨d, m, by rw [implied_frame h, hp], ho⟩

theorem execPhp_frame {s t : State} (h : execPhp s = .next t) :
    ∃ d m, t = complete (s.pc + 1) 3 (((s.setDev d).setMem m).setSp (s.sp - 1)) ∧
      ∀ a, a ≠ stackAddr s.sp → Mem.read m a = Mem.read s.mem a := by
  obtain ⟨d, m, hp, -, -, ho⟩ := push_frame (s.p.serialize true) s
  exact ⟨d, m, by rw [implied_frame h, hp], ho⟩

theorem execPla_frame {s t : State} (h : execPla s = .next t) :
    ∃ v d, t = complete (s.pc + 1) 4 (loadA v ((s.setSp (s.sp + 1)).setDev d)) := by
  obtain ⟨⟨v, s1⟩, h1, h⟩ := bind_ok (outcome_next h)
  cases h
  obtain ⟨d, rfl, -⟩ := pull_frame h1
  exact ⟨v, d, rfl⟩

theorem execPlp_frame {s t : State} (h : execPlp s = .next t) :
    ∃ v d, t = complete (s.pc + 1) 4 (((s.setSp (s.sp + 1)).setDev d).setP (Flags.ofByte v)) := by
  obtain ⟨⟨v, s1⟩, h1, h⟩ := bind_ok (outcome_next h)
  cases h
  obtain ⟨d, rfl, -⟩ := pull_frame h1
  exact ⟨v, d, rfl⟩

end Sys2Proof.Machine
end

