-- ==== Sys2Proof/Laws/Host.lean ====
section
/-! SUPPORT. What the host's calls do to memory and to the breakpoint set, and that they keep the canonical
forms (spec/20_memory.md R68; spec/35_execution.md R161; spec/70_reset_and_hazards.md R553;
spec/10_state.md R28). -/

namespace Sys2Proof.Machine

/-! ### Clearing memory -/

/-- Zeros at the `n` addresses from `lo`, in front of a list that begins no lower than their end. -/
theorem zeros_wfFrom (n : Nat) {lo : Nat} {m : List Host.Cell} (h : Sparse.wfFrom sentinel (lo + n) m = true) :
    Sparse.wfFrom sentinel lo ((List.range' lo n).map (fun a => (a, (0x00 : Byte))) ++ m) = true := by
  induction n generalizing lo with
  | zero => exact h
  | succ n ih =>
    simp only [List.range'_succ, List.map_cons, List.cons_append, Sparse.wfFrom, Bool.and_eq_true,
      decide_eq_true_eq]
    refine ⟨⟨Nat.le_refl _, by decide⟩, ih ?_⟩
    rw [show lo + 1 + n = lo + (n + 1) by omega]
    exact h

theorem zeros_get (n : Nat) (lo a : Nat) (m : List Host.Cell) :
    Sparse.get sentinel ((List.range' lo n).map (fun a => (a, (0x00 : Byte))) ++ m) a =
      if lo ≤ a ∧ a < lo + n then 0x00 else Sparse.get sentinel m a := by
  induction n generalizing lo with
  | zero => rw [if_neg (by omega)]; rfl
  | succ n ih =>
    simp only [List.range'_succ, List.map_cons, List.cons_append, Sparse.get, ih]
    by_cases h : a = lo
    · rw [if_pos h, if_pos (by omega)]
    · rw [if_neg h]
      by_cases k : lo + 1 ≤ a ∧ a < lo + 1 + n
      · rw [if_pos k, if_pos (by omega)]
      · rw [if_neg k, if_neg (by omega)]

theorem filter_from_wfFrom (base : Nat) {lo : Nat} {m : List Host.Cell}
    (h : Sparse.wfFrom sentinel lo m = true) :
    Sparse.wfFrom sentinel base (m.filter (fun c => decide (base ≤ c.1))) = true := by
  induction m generalizing lo with
  | nil => rfl
  | cons e m ih =>
    obtain ⟨k, v⟩ := e
    simp only [Sparse.wfFrom, Bool.and_eq_true, decide_eq_true_eq] at h
    by_cases hk : base ≤ k
    · simp only [List.filter_cons, hk, decide_true, if_true, Sparse.wfFrom, Bool.and_eq_true, decide_eq_true_eq]
      exact ⟨⟨trivial, h.1.2⟩, sparse_wfFrom_filter sentinel _ h.2⟩
    · simp only [List.filter_cons, hk, decide_false, Bool.false_eq_true, if_false]
      exact ih h.2

theorem filter_from_get (base a : Nat) (ha : base ≤ a) (m : List Host.Cell) :
    Sparse.get sentinel (m.filter (fun c => decide (base ≤ c.1))) a = Sparse.get sentinel m a := by
  induction m with
  | nil => rfl
  | cons e m ih =>
    obtain ⟨k, v⟩ := e
    by_cases hk : base ≤ k
    · simp only [List.filter_cons, hk, decide_true, if_true, Sparse.get, ih]
    · have hne : a ≠ k := by omega
      simp only [List.filter_cons, hk, decide_false, Bool.false_eq_true, if_false, Sparse.get, if_neg hne, ih]

/-- Clearing keeps memory canonical. -/
theorem clearBelow_wf {base : Nat} {m : List Host.Cell} (hb : base ≤ 65536) (h : Mem.wf m = true) :
    Mem.wf (clearBelow base m) = true := by
  simp only [Mem.wf, Bool.and_eq_true, clearBelow, List.range_eq_range'] at h ⊢
  refine ⟨zeros_wfFrom base ?_, ?_⟩
  · rw [Nat.zero_add]
    exact filter_from_wfFrom base h.1
  · simp only [Sparse.below, List.all_eq_true, decide_eq_true_eq] at h ⊢
    intro e he
    rcases List.mem_append.1 he with he | he
    · obtain ⟨a, ha, rfl⟩ := List.mem_map.1 he
      have := List.mem_range'_1.1 ha
      omega
    · exact h.2 e (List.mem_filter.1 he).1

/-- Clearing zeroes the bytes below `base` and no other. -/
theorem clearBelow_read (base : Nat) (m : List Host.Cell) (a : Word) :
    Mem.read (clearBelow base m) a = if a.toNat < base then 0x00 else Mem.read m a := by
  simp only [Mem.read, clearBelow, List.range_eq_range', zeros_get]
  by_cases h : a.toNat < base
  · rw [if_pos (by omega), if_pos h]
  · rw [if_neg (by omega), if_neg h, filter_from_get base _ (by omega)]

/-! ### Loads and the bus -/

/-- A load keeps memory canonical and changes nothing else (R68). -/
theorem loadBinary_frame {file : Option (List Byte)} {offset length : Nat} {s t : State}
    (h : loadBinary file offset length s = .ok t) :
    ∃ m, t = s.setMem m ∧ (Mem.wf s.mem = true → Mem.wf m = true) := by
  simp only [loadBinary] at h
  split at h
  · cases h
  · split at h
    · cases h
    · split at h
      · cases h
      · cases h
        exact ⟨_, rfl, storeBytes_wf _ _⟩

theorem hostWrite_evolves (a : Word) (v : Byte) (bypass : Bool) (s : State) :
    Evolves s (hostWrite a v bypass s) := by
  simp only [hostWrite]
  split
  · simp only [rawWrite]
    split
    · exact evolves_setMem (Mem.write_wf a v)
    · exact Evolves.refl s
    · exact Evolves.refl s
  · exact writeByte_evolves a v s

/-! ### Reset -/

/-- `reset()` sets SP, I and PC, and the devices see the reads of the vector. -/
theorem warmReset_frame {s t : State} (h : warmReset s = .ok t) :
    ∃ pc d, t = (((s.setSp 0xFF).setP { s.p with i := true }).setDev d).setPc pc ∧ DevStep s d := by
  simp only [warmReset, read16] at h
  obtain ⟨⟨w, s1⟩, h1, h⟩ := bind_ok h
  cases h
  obtain ⟨d, rfl, hd⟩ := readPair_frame h1
  exact ⟨w, d, rfl, hd⟩

/-! ### Breakpoints -/

theorem breakpointsWf_tail {a : Word} {bs : List Word} (h : breakpointsWf (a :: bs) = true) :
    breakpointsWf bs = true := by
  cases bs with
  | nil => rfl
  | cons b bs =>
    simp only [breakpointsWf, Bool.and_eq_true] at h
    exact h.2

theorem breakpointsWf_cons_iff {a : Word} {bs : List Word} :
    breakpointsWf (a :: bs) = true ↔ breakpointsWf bs = true ∧ ∀ b ∈ bs, a.toNat < b.toNat := by
  induction bs generalizing a with
  | nil => simp [breakpointsWf]
  | cons b bs ih =>
    simp only [breakpointsWf, Bool.and_eq_true, decide_eq_true_eq, List.mem_cons, forall_eq_or_imp]
    constructor
    · rintro ⟨h, k⟩
      exact ⟨k, h, fun c hc => Nat.lt_trans h ((ih.1 k).2 c hc)⟩
    · rintro ⟨k, h, -⟩
      exact ⟨h, k⟩

theorem mem_insertAddr {a b : Word} {bs : List Word} : b ∈ insertAddr a bs ↔ b = a ∨ b ∈ bs := by
  induction bs with
  | nil => simp [insertAddr]
  | cons c cs ih =>
    simp only [insertAddr]
    split
    · simp
    · split
      · next h => subst h; simp
      · simp only [List.mem_cons, ih]
        exact or_left_comm

/-- Adding a breakpoint keeps the set's canonical form (R28). -/
theorem insertAddr_wf (a : Word) {bs : List Word} (h : breakpointsWf bs = true) :
    breakpointsWf (insertAddr a bs) = true := by
  induction bs with
  | nil => rfl
  | cons b bs ih =>
    have hb := breakpointsWf_cons_iff.1 h
    simp only [insertAddr]
    split
    · next hlt =>
      rw [breakpointsWf_cons_iff]
      refine ⟨h, fun c hc => ?_⟩
      rcases List.mem_cons.1 hc with rfl | hc
      · exact hlt
      · exact Nat.lt_trans hlt (hb.2 c hc)
    · split
      · exact h
      · next hlt hne =>
        rw [breakpointsWf_cons_iff]
        refine ⟨ih hb.1, fun c hc => ?_⟩
        rcases mem_insertAddr.1 hc with rfl | hc
        · have : b.toNat ≠ c.toNat := fun k => hne (BitVec.eq_of_toNat_eq k.symm)
          omega
        · exact hb.2 c hc

/-- Removing a breakpoint keeps the set's canonical form (R28). -/
theorem filter_breakpointsWf (f : Word → Bool) {bs : List Word} (h : breakpointsWf bs = true) :
    breakpointsWf (bs.filter f) = true := by
  induction bs with
  | nil => rfl
  | cons b bs ih =>
    have hb := breakpointsWf_cons_iff.1 h
    by_cases hf : f b = true
    · simp only [List.filter_cons, hf, if_true]
      rw [breakpointsWf_cons_iff]
      exact ⟨ih hb.1, fun c hc => hb.2 c (List.mem_filter.1 hc).1⟩
    · simp only [List.filter_cons, hf, Bool.false_eq_true, if_false]
      exact ih hb.1

end Sys2Proof.Machine
end

