-- ==== Sys2Proof/Laws/PerInstr.lean ====
section
/-! SUPPORT. Facts about every instruction as a term of the inductive `Instr`, one lemma per constructor: each is well formed, has a
descriptor in the opcode table, and is encoded in as many bytes as its descriptor and its mode give it
(spec/30_encoding.md R100, R103, R107). -/

namespace Sys2Proof.Laws.EncodedForm

/-- The instruction is well formed, has a descriptor, and its bytes are as many as the descriptor's length
and its mode's length say. -/
def Statement (i : Instr) : Prop :=
  i.wf = true ∧ ∃ d, i.descriptor = some d ∧ (encode i).length = d.length ∧ d.length = d.mode.length

theorem brk : Statement (.brk) := ⟨rfl, _, rfl, rfl, rfl⟩
theorem oraIzx (zp : Byte) : Statement (.oraIzx zp) := ⟨rfl, _, rfl, rfl, rfl⟩
theorem oraZp (zp : Byte) : Statement (.oraZp zp) := ⟨rfl, _, rfl, rfl, rfl⟩
theorem aslZp (zp : Byte) : Statement (.aslZp zp) := ⟨rfl, _, rfl, rfl, rfl⟩
theorem php : Statement (.php) := ⟨rfl, _, rfl, rfl, rfl⟩
theorem oraImm (v : Byte) : Statement (.oraImm v) := ⟨rfl, _, rfl, rfl, rfl⟩
theorem aslAcc : Statement (.aslAcc) := ⟨rfl, _, rfl, rfl, rfl⟩
theorem oraAbs (addr : Word) : Statement (.oraAbs addr) := ⟨rfl, _, rfl, rfl, rfl⟩
theorem aslAbs (addr : Word) : Statement (.aslAbs addr) := ⟨rfl, _, rfl, rfl, rfl⟩
theorem bpl (d : Byte) : Statement (.bpl d) := ⟨rfl, _, rfl, rfl, rfl⟩
theorem oraIzy (zp : Byte) : Statement (.oraIzy zp) := ⟨rfl, _, rfl, rfl, rfl⟩
theorem oraZpx (zp : Byte) : Statement (.oraZpx zp) := ⟨rfl, _, rfl, rfl, rfl⟩
theorem aslZpx (zp : Byte) : Statement (.aslZpx zp) := ⟨rfl, _, rfl, rfl, rfl⟩
theorem clc : Statement (.clc) := ⟨rfl, _, rfl, rfl, rfl⟩
theorem oraAbsy (addr : Word) : Statement (.oraAbsy addr) := ⟨rfl, _, rfl, rfl, rfl⟩
theorem oraAbsx (addr : Word) : Statement (.oraAbsx addr) := ⟨rfl, _, rfl, rfl, rfl⟩
theorem aslAbsx (addr : Word) : Statement (.aslAbsx addr) := ⟨rfl, _, rfl, rfl, rfl⟩
theorem jsr (addr : Word) : Statement (.jsr addr) := ⟨rfl, _, rfl, rfl, rfl⟩
theorem andIzx (zp : Byte) : Statement (.andIzx zp) := ⟨rfl, _, rfl, rfl, rfl⟩
theorem bitZp (zp : Byte) : Statement (.bitZp zp) := ⟨rfl, _, rfl, rfl, rfl⟩
theorem andZp (zp : Byte) : Statement (.andZp zp) := ⟨rfl, _, rfl, rfl, rfl⟩
theorem rolZp (zp : Byte) : Statement (.rolZp zp) := ⟨rfl, _, rfl, rfl, rfl⟩
theorem plp : Statement (.plp) := ⟨rfl, _, rfl, rfl, rfl⟩
theorem andImm (v : Byte) : Statement (.andImm v) := ⟨rfl, _, rfl, rfl, rfl⟩
theorem rolAcc : Statement (.rolAcc) := ⟨rfl, _, rfl, rfl, rfl⟩
theorem bitAbs (addr : Word) : Statement (.bitAbs addr) := ⟨rfl, _, rfl, rfl, rfl⟩
theorem andAbs (addr : Word) : Statement (.andAbs addr) := ⟨rfl, _, rfl, rfl, rfl⟩
theorem rolAbs (addr : Word) : Statement (.rolAbs addr) := ⟨rfl, _, rfl, rfl, rfl⟩
theorem bmi (d : Byte) : Statement (.bmi d) := ⟨rfl, _, rfl, rfl, rfl⟩
theorem andIzy (zp : Byte) : Statement (.andIzy zp) := ⟨rfl, _, rfl, rfl, rfl⟩
theorem andZpx (zp : Byte) : Statement (.andZpx zp) := ⟨rfl, _, rfl, rfl, rfl⟩
theorem rolZpx (zp : Byte) : Statement (.rolZpx zp) := ⟨rfl, _, rfl, rfl, rfl⟩
theorem sec : Statement (.sec) := ⟨rfl, _, rfl, rfl, rfl⟩
theorem andAbsy (addr : Word) : Statement (.andAbsy addr) := ⟨rfl, _, rfl, rfl, rfl⟩
theorem andAbsx (addr : Word) : Statement (.andAbsx addr) := ⟨rfl, _, rfl, rfl, rfl⟩
theorem rolAbsx (addr : Word) : Statement (.rolAbsx addr) := ⟨rfl, _, rfl, rfl, rfl⟩
theorem rti : Statement (.rti) := ⟨rfl, _, rfl, rfl, rfl⟩
theorem eorIzx (zp : Byte) : Statement (.eorIzx zp) := ⟨rfl, _, rfl, rfl, rfl⟩
theorem eorZp (zp : Byte) : Statement (.eorZp zp) := ⟨rfl, _, rfl, rfl, rfl⟩
theorem lsrZp (zp : Byte) : Statement (.lsrZp zp) := ⟨rfl, _, rfl, rfl, rfl⟩
theorem pha : Statement (.pha) := ⟨rfl, _, rfl, rfl, rfl⟩
theorem eorImm (v : Byte) : Statement (.eorImm v) := ⟨rfl, _, rfl, rfl, rfl⟩
theorem lsrAcc : Statement (.lsrAcc) := ⟨rfl, _, rfl, rfl, rfl⟩
theorem jmpAbs (addr : Word) : Statement (.jmpAbs addr) := ⟨rfl, _, rfl, rfl, rfl⟩
theorem eorAbs (addr : Word) : Statement (.eorAbs addr) := ⟨rfl, _, rfl, rfl, rfl⟩
theorem lsrAbs (addr : Word) : Statement (.lsrAbs addr) := ⟨rfl, _, rfl, rfl, rfl⟩
theorem bvc (d : Byte) : Statement (.bvc d) := ⟨rfl, _, rfl, rfl, rfl⟩
theorem eorIzy (zp : Byte) : Statement (.eorIzy zp) := ⟨rfl, _, rfl, rfl, rfl⟩
theorem eorZpx (zp : Byte) : Statement (.eorZpx zp) := ⟨rfl, _, rfl, rfl, rfl⟩
theorem lsrZpx (zp : Byte) : Statement (.lsrZpx zp) := ⟨rfl, _, rfl, rfl, rfl⟩
theorem cli : Statement (.cli) := ⟨rfl, _, rfl, rfl, rfl⟩
theorem eorAbsy (addr : Word) : Statement (.eorAbsy addr) := ⟨rfl, _, rfl, rfl, rfl⟩
theorem eorAbsx (addr : Word) : Statement (.eorAbsx addr) := ⟨rfl, _, rfl, rfl, rfl⟩
theorem lsrAbsx (addr : Word) : Statement (.lsrAbsx addr) := ⟨rfl, _, rfl, rfl, rfl⟩
theorem rts : Statement (.rts) := ⟨rfl, _, rfl, rfl, rfl⟩
theorem adcIzx (zp : Byte) : Statement (.adcIzx zp) := ⟨rfl, _, rfl, rfl, rfl⟩
theorem adcZp (zp : Byte) : Statement (.adcZp zp) := ⟨rfl, _, rfl, rfl, rfl⟩
theorem rorZp (zp : Byte) : Statement (.rorZp zp) := ⟨rfl, _, rfl, rfl, rfl⟩
theorem pla : Statement (.pla) := ⟨rfl, _, rfl, rfl, rfl⟩
theorem adcImm (v : Byte) : Statement (.adcImm v) := ⟨rfl, _, rfl, rfl, rfl⟩
theorem rorAcc : Statement (.rorAcc) := ⟨rfl, _, rfl, rfl, rfl⟩
theorem jmpInd (ptr : Word) : Statement (.jmpInd ptr) := ⟨rfl, _, rfl, rfl, rfl⟩
theorem adcAbs (addr : Word) : Statement (.adcAbs addr) := ⟨rfl, _, rfl, rfl, rfl⟩
theorem rorAbs (addr : Word) : Statement (.rorAbs addr) := ⟨rfl, _, rfl, rfl, rfl⟩
theorem bvs (d : Byte) : Statement (.bvs d) := ⟨rfl, _, rfl, rfl, rfl⟩
theorem adcIzy (zp : Byte) : Statement (.adcIzy zp) := ⟨rfl, _, rfl, rfl, rfl⟩
theorem adcZpx (zp : Byte) : Statement (.adcZpx zp) := ⟨rfl, _, rfl, rfl, rfl⟩
theorem rorZpx (zp : Byte) : Statement (.rorZpx zp) := ⟨rfl, _, rfl, rfl, rfl⟩
theorem sei : Statement (.sei) := ⟨rfl, _, rfl, rfl, rfl⟩
theorem adcAbsy (addr : Word) : Statement (.adcAbsy addr) := ⟨rfl, _, rfl, rfl, rfl⟩
theorem adcAbsx (addr : Word) : Statement (.adcAbsx addr) := ⟨rfl, _, rfl, rfl, rfl⟩
theorem rorAbsx (addr : Word) : Statement (.rorAbsx addr) := ⟨rfl, _, rfl, rfl, rfl⟩
theorem staIzx (zp : Byte) : Statement (.staIzx zp) := ⟨rfl, _, rfl, rfl, rfl⟩
theorem styZp (zp : Byte) : Statement (.styZp zp) := ⟨rfl, _, rfl, rfl, rfl⟩
theorem staZp (zp : Byte) : Statement (.staZp zp) := ⟨rfl, _, rfl, rfl, rfl⟩
theorem stxZp (zp : Byte) : Statement (.stxZp zp) := ⟨rfl, _, rfl, rfl, rfl⟩
theorem dey : Statement (.dey) := ⟨rfl, _, rfl, rfl, rfl⟩
theorem txa : Statement (.txa) := ⟨rfl, _, rfl, rfl, rfl⟩
theorem styAbs (addr : Word) : Statement (.styAbs addr) := ⟨rfl, _, rfl, rfl, rfl⟩
theorem staAbs (addr : Word) : Statement (.staAbs addr) := ⟨rfl, _, rfl, rfl, rfl⟩
theorem stxAbs (addr : Word) : Statement (.stxAbs addr) := ⟨rfl, _, rfl, rfl, rfl⟩
theorem bcc (d : Byte) : Statement (.bcc d) := ⟨rfl, _, rfl, rfl, rfl⟩
theorem staIzy (zp : Byte) : Statement (.staIzy zp) := ⟨rfl, _, rfl, rfl, rfl⟩
theorem styZpx (zp : Byte) : Statement (.styZpx zp) := ⟨rfl, _, rfl, rfl, rfl⟩
theorem staZpx (zp : Byte) : Statement (.staZpx zp) := ⟨rfl, _, rfl, rfl, rfl⟩
theorem stxZpy (zp : Byte) : Statement (.stxZpy zp) := ⟨rfl, _, rfl, rfl, rfl⟩
theorem tya : Statement (.tya) := ⟨rfl, _, rfl, rfl, rfl⟩
theorem staAbsy (addr : Word) : Statement (.staAbsy addr) := ⟨rfl, _, rfl, rfl, rfl⟩
theorem txs : Statement (.txs) := ⟨rfl, _, rfl, rfl, rfl⟩
theorem staAbsx (addr : Word) : Statement (.staAbsx addr) := ⟨rfl, _, rfl, rfl, rfl⟩
theorem ldyImm (v : Byte) : Statement (.ldyImm v) := ⟨rfl, _, rfl, rfl, rfl⟩
theorem ldaIzx (zp : Byte) : Statement (.ldaIzx zp) := ⟨rfl, _, rfl, rfl, rfl⟩
theorem ldxImm (v : Byte) : Statement (.ldxImm v) := ⟨rfl, _, rfl, rfl, rfl⟩
theorem ldyZp (zp : Byte) : Statement (.ldyZp zp) := ⟨rfl, _, rfl, rfl, rfl⟩
theorem ldaZp (zp : Byte) : Statement (.ldaZp zp) := ⟨rfl, _, rfl, rfl, rfl⟩
theorem ldxZp (zp : Byte) : Statement (.ldxZp zp) := ⟨rfl, _, rfl, rfl, rfl⟩
theorem tay : Statement (.tay) := ⟨rfl, _, rfl, rfl, rfl⟩
theorem ldaImm (v : Byte) : Statement (.ldaImm v) := ⟨rfl, _, rfl, rfl, rfl⟩
theorem tax : Statement (.tax) := ⟨rfl, _, rfl, rfl, rfl⟩
theorem ldyAbs (addr : Word) : Statement (.ldyAbs addr) := ⟨rfl, _, rfl, rfl, rfl⟩
theorem ldaAbs (addr : Word) : Statement (.ldaAbs addr) := ⟨rfl, _, rfl, rfl, rfl⟩
theorem ldxAbs (addr : Word) : Statement (.ldxAbs addr) := ⟨rfl, _, rfl, rfl, rfl⟩
theorem bcs (d : Byte) : Statement (.bcs d) := ⟨rfl, _, rfl, rfl, rfl⟩
theorem ldaIzy (zp : Byte) : Statement (.ldaIzy zp) := ⟨rfl, _, rfl, rfl, rfl⟩
theorem ldyZpx (zp : Byte) : Statement (.ldyZpx zp) := ⟨rfl, _, rfl, rfl, rfl⟩
theorem ldaZpx (zp : Byte) : Statement (.ldaZpx zp) := ⟨rfl, _, rfl, rfl, rfl⟩
theorem ldxZpy (zp : Byte) : Statement (.ldxZpy zp) := ⟨rfl, _, rfl, rfl, rfl⟩
theorem clv : Statement (.clv) := ⟨rfl, _, rfl, rfl, rfl⟩
theorem ldaAbsy (addr : Word) : Statement (.ldaAbsy addr) := ⟨rfl, _, rfl, rfl, rfl⟩
theorem tsx : Statement (.tsx) := ⟨rfl, _, rfl, rfl, rfl⟩
theorem ldyAbsx (addr : Word) : Statement (.ldyAbsx addr) := ⟨rfl, _, rfl, rfl, rfl⟩
theorem ldaAbsx (addr : Word) : Statement (.ldaAbsx addr) := ⟨rfl, _, rfl, rfl, rfl⟩
theorem ldxAbsy (addr : Word) : Statement (.ldxAbsy addr) := ⟨rfl, _, rfl, rfl, rfl⟩
theorem cpyImm (v : Byte) : Statement (.cpyImm v) := ⟨rfl, _, rfl, rfl, rfl⟩
theorem cmpIzx (zp : Byte) : Statement (.cmpIzx zp) := ⟨rfl, _, rfl, rfl, rfl⟩
theorem cpyZp (zp : Byte) : Statement (.cpyZp zp) := ⟨rfl, _, rfl, rfl, rfl⟩
theorem cmpZp (zp : Byte) : Statement (.cmpZp zp) := ⟨rfl, _, rfl, rfl, rfl⟩
theorem decZp (zp : Byte) : Statement (.decZp zp) := ⟨rfl, _, rfl, rfl, rfl⟩
theorem iny : Statement (.iny) := ⟨rfl, _, rfl, rfl, rfl⟩
theorem cmpImm (v : Byte) : Statement (.cmpImm v) := ⟨rfl, _, rfl, rfl, rfl⟩
theorem dex : Statement (.dex) := ⟨rfl, _, rfl, rfl, rfl⟩
theorem cpyAbs (addr : Word) : Statement (.cpyAbs addr) := ⟨rfl, _, rfl, rfl, rfl⟩
theorem cmpAbs (addr : Word) : Statement (.cmpAbs addr) := ⟨rfl, _, rfl, rfl, rfl⟩
theorem decAbs (addr : Word) : Statement (.decAbs addr) := ⟨rfl, _, rfl, rfl, rfl⟩
theorem bne (d : Byte) : Statement (.bne d) := ⟨rfl, _, rfl, rfl, rfl⟩
theorem cmpIzy (zp : Byte) : Statement (.cmpIzy zp) := ⟨rfl, _, rfl, rfl, rfl⟩
theorem cmpZpx (zp : Byte) : Statement (.cmpZpx zp) := ⟨rfl, _, rfl, rfl, rfl⟩
theorem decZpx (zp : Byte) : Statement (.decZpx zp) := ⟨rfl, _, rfl, rfl, rfl⟩
theorem cld : Statement (.cld) := ⟨rfl, _, rfl, rfl, rfl⟩
theorem cmpAbsy (addr : Word) : Statement (.cmpAbsy addr) := ⟨rfl, _, rfl, rfl, rfl⟩
theorem cmpAbsx (addr : Word) : Statement (.cmpAbsx addr) := ⟨rfl, _, rfl, rfl, rfl⟩
theorem decAbsx (addr : Word) : Statement (.decAbsx addr) := ⟨rfl, _, rfl, rfl, rfl⟩
theorem cpxImm (v : Byte) : Statement (.cpxImm v) := ⟨rfl, _, rfl, rfl, rfl⟩
theorem sbcIzx (zp : Byte) : Statement (.sbcIzx zp) := ⟨rfl, _, rfl, rfl, rfl⟩
theorem cpxZp (zp : Byte) : Statement (.cpxZp zp) := ⟨rfl, _, rfl, rfl, rfl⟩
theorem sbcZp (zp : Byte) : Statement (.sbcZp zp) := ⟨rfl, _, rfl, rfl, rfl⟩
theorem incZp (zp : Byte) : Statement (.incZp zp) := ⟨rfl, _, rfl, rfl, rfl⟩
theorem inx : Statement (.inx) := ⟨rfl, _, rfl, rfl, rfl⟩
theorem sbcImm (v : Byte) : Statement (.sbcImm v) := ⟨rfl, _, rfl, rfl, rfl⟩
theorem nop : Statement (.nop) := ⟨rfl, _, rfl, rfl, rfl⟩
theorem cpxAbs (addr : Word) : Statement (.cpxAbs addr) := ⟨rfl, _, rfl, rfl, rfl⟩
theorem sbcAbs (addr : Word) : Statement (.sbcAbs addr) := ⟨rfl, _, rfl, rfl, rfl⟩
theorem incAbs (addr : Word) : Statement (.incAbs addr) := ⟨rfl, _, rfl, rfl, rfl⟩
theorem beq (d : Byte) : Statement (.beq d) := ⟨rfl, _, rfl, rfl, rfl⟩
theorem sbcIzy (zp : Byte) : Statement (.sbcIzy zp) := ⟨rfl, _, rfl, rfl, rfl⟩
theorem sbcZpx (zp : Byte) : Statement (.sbcZpx zp) := ⟨rfl, _, rfl, rfl, rfl⟩
theorem incZpx (zp : Byte) : Statement (.incZpx zp) := ⟨rfl, _, rfl, rfl, rfl⟩
theorem sed : Statement (.sed) := ⟨rfl, _, rfl, rfl, rfl⟩
theorem sbcAbsy (addr : Word) : Statement (.sbcAbsy addr) := ⟨rfl, _, rfl, rfl, rfl⟩
theorem sbcAbsx (addr : Word) : Statement (.sbcAbsx addr) := ⟨rfl, _, rfl, rfl, rfl⟩
theorem incAbsx (addr : Word) : Statement (.incAbsx addr) := ⟨rfl, _, rfl, rfl, rfl⟩

end Sys2Proof.Laws.EncodedForm
end

