-- ==== Sys2Proof/Machine/Assembly.lean ====
section
/-! DEFINITION. The assembler text of an instruction (spec/30_encoding.md R108), and the displacement
byte of a branch to a target. -/

namespace Sys2Proof

/-- A hexadecimal digit, in capitals. -/
def hexDigit (n : Nat) : Char := "0123456789ABCDEF".toList.getD n '?'

/-- `$nn`. -/
def hexByte (b : Byte) : String := String.ofList ['$', hexDigit (b.toNat / 16), hexDigit (b.toNat % 16)]

/-- `$nnnn`: always four digits, which keeps the absolute form of a zero-page address (R108). -/
def hexWord (w : Word) : String :=
  String.ofList ['$', hexDigit (w.toNat / 4096), hexDigit (w.toNat / 256 % 16),
    hexDigit (w.toNat / 16 % 16), hexDigit (w.toNat % 16)]

/-- The text of a mnemonic. -/
def Mnemonic.text : Mnemonic → String
  | .brk => "BRK"
  | .ora => "ORA"
  | .asl => "ASL"
  | .php => "PHP"
  | .bpl => "BPL"
  | .clc => "CLC"
  | .jsr => "JSR"
  | .and => "AND"
  | .bit => "BIT"
  | .rol => "ROL"
  | .plp => "PLP"
  | .bmi => "BMI"
  | .sec => "SEC"
  | .rti => "RTI"
  | .eor => "EOR"
  | .lsr => "LSR"
  | .pha => "PHA"
  | .jmp => "JMP"
  | .bvc => "BVC"
  | .cli => "CLI"
  | .rts => "RTS"
  | .adc => "ADC"
  | .ror => "ROR"
  | .pla => "PLA"
  | .bvs => "BVS"
  | .sei => "SEI"
  | .sta => "STA"
  | .sty => "STY"
  | .stx => "STX"
  | .dey => "DEY"
  | .txa => "TXA"
  | .bcc => "BCC"
  | .tya => "TYA"
  | .txs => "TXS"
  | .ldy => "LDY"
  | .lda => "LDA"
  | .ldx => "LDX"
  | .tay => "TAY"
  | .tax => "TAX"
  | .bcs => "BCS"
  | .clv => "CLV"
  | .tsx => "TSX"
  | .cpy => "CPY"
  | .cmp => "CMP"
  | .dec => "DEC"
  | .iny => "INY"
  | .dex => "DEX"
  | .bne => "BNE"
  | .cld => "CLD"
  | .cpx => "CPX"
  | .sbc => "SBC"
  | .inc => "INC"
  | .inx => "INX"
  | .nop => "NOP"
  | .beq => "BEQ"
  | .sed => "SED"

/-- The operand as R108 writes it: the mode, the operand bytes, and for a branch the target. -/
def operandText (m : Mode) (pc0 : Word) (b1 b2 : Byte) : String :=
  match m with
  | .imp => ""
  | .acc => " A"
  | .imm => " #" ++ hexByte b1
  | .zp => " " ++ hexByte b1
  | .zpx => " " ++ hexByte b1 ++ ",X"
  | .zpy => " " ++ hexByte b1 ++ ",Y"
  | .abs => " " ++ hexWord (joinBytes b2 b1)
  | .absx => " " ++ hexWord (joinBytes b2 b1) ++ ",X"
  | .absy => " " ++ hexWord (joinBytes b2 b1) ++ ",Y"
  | .ind => " (" ++ hexWord (joinBytes b2 b1) ++ ")"
  | .izx => " (" ++ hexByte b1 ++ ",X)"
  | .izy => " (" ++ hexByte b1 ++ "),Y"
  | .rel => " " ++ hexWord (pc0 + 2 + sext16 b1)

/-- The assembler text of an instruction at `pc0`. -/
def Instr.text (pc0 : Word) (i : Instr) : Option String :=
  i.descriptor.map (fun d =>
    d.mnemonic.text ++ operandText d.mode pc0 ((encode i).getD 1 0) ((encode i).getD 2 0))

/-- The displacement byte of a branch at `pc0` to a target: `(target - (pc0 + 2)) mod 256`, where the
target is within -128 to +127 of `pc0 + 2` (R108). -/
def branchDisplacement (pc0 target : Word) : Option Byte :=
  if sext16 (loByte (target - (pc0 + 2))) = target - (pc0 + 2) then some (loByte (target - (pc0 + 2)))
  else none

end Sys2Proof
end

