-- ==== Sys2Proof/Tests/Slice0.lean ====
section
/-! SUPPORT. The model's own tests: what the well-formedness checks refuse; one word per opcode, written out
from the "Encoding" lines of the spec; one-step vectors of spec/95_test_vectors.md, named after their rows;
and for every statement with hypotheses a witness that meets them. -/

namespace Sys2Proof.Tests

open Sys2Proof Sys2Proof.Machine

set_option Elab.async false

/-! ### Helpers -/

/-- The flags whose names are listed. -/
def flags (l : List FlagName) : Flags :=
  { n := decide (.n ∈ l), v := decide (.v ∈ l), b := decide (.b ∈ l), d := decide (.d ∈ l)
    i := decide (.i ∈ l), z := decide (.z ∈ l), c := decide (.c ∈ l) }

/-- The start state of 95_test_vectors.md section 1. -/
def start : State := { State.reset with pc := 0x0300, p := flags [], readHooks := [], writeHooks := [] }

/-- An instruction's bytes at PC, and other bytes where listed. -/
def placed (bytes : List Byte) (cells : List (Word × Byte)) (s : State) : State :=
  { s with mem := cells.foldl (fun m c => Mem.write m c.1 c.2) (storeBytes s.mem s.pc bytes) }

/-- A, X, Y, SP, PC, the flags and the cycle count. -/
structure Regs where
  a : Byte
  x : Byte
  y : Byte
  sp : Byte
  pc : Word
  p : Flags
  cycles : Nat
deriving DecidableEq, Repr

/-- The registers of a next state. -/
def regs : Host.Outcome State Fault Refusal → Option Regs
  | .next t => some ⟨t.a, t.x, t.y, t.sp, t.pc, t.p, t.totalCycles⟩
  | .fault _ => none
  | .refused _ => none

/-- A property of a next state; false of a stop. -/
def after (o : Host.Outcome State Fault Refusal) (f : State → Bool) : Bool :=
  match o with
  | .next t => f t
  | .fault _ => false
  | .refused _ => false

/-- A byte of memory in a next state. -/
def byteAt (o : Host.Outcome State Fault Refusal) (a : Word) : Option Byte :=
  match o with
  | .next t => some (Mem.read t.mem a)
  | .fault _ => none
  | .refused _ => none

/-- The fault of an outcome. -/
def faultOf : Host.Outcome State Fault Refusal → Option Fault
  | .next _ => none
  | .fault f => some f
  | .refused _ => none

theorem next_of_after {o : Host.Outcome State Fault Refusal} {f : State → Bool} (h : after o f = true) :
    ∃ t, o = .next t ∧ f t = true := by
  cases o with
  | next t => exact ⟨t, rfl, h⟩
  | fault e => cases h
  | refused r => cases h

/-- Whether a computation gives a value. -/
def gives {α : Type} (r : Except Fault α) : Bool :=
  match r with
  | .ok _ => true
  | .error _ => false

theorem ok_of_gives {α : Type} {r : Except Fault α} (h : gives r = true) : ∃ x, r = .ok x := by
  cases r with
  | ok x => exact ⟨x, rfl⟩
  | error e => cases h

/-- Whether a computation stops with the fault of a read hook that gives no value. -/
def noValue {α : Type} (r : Except Fault α) (a : Word) : Bool :=
  match r with
  | .ok _ => false
  | .error e => decide (e = .readHookNoValue a)

theorem error_of_noValue {α : Type} {r : Except Fault α} {a : Word} (h : noValue r a = true) :
    r = .error (.readHookNoValue a) := by
  cases r with
  | ok x => cases h
  | error e => exact congrArg Except.error (of_decide_eq_true h)

/-- The byte a read gives. -/
def byteOf (r : Except Fault (Byte × State)) : Option Byte :=
  match r with
  | .ok (v, _) => some v
  | .error _ => none

/-! ### What the checks refuse -/

theorem test_wf_default : Config.default.wf = true := by decide

theorem test_wf_slot_zero : { Config.default with diskSlot := 0 }.slotOk = false ∧
    { Config.default with diskSlot := 0 }.wf = false := by decide

theorem test_wf_slot_eight : { Config.default with diskSlot := 8 }.slotOk = false ∧
    { Config.default with diskSlot := 8 }.wf = false := by decide

theorem test_wf_rom_base : { Config.default with romBase := 0x10001 }.romBaseOk = false ∧
    { Config.default with romBase := 0x10001 }.wf = false := by decide

theorem test_wf_disk_rom : { Config.default with diskRom := [0xA2, 0x20] }.diskRomOk = false ∧
    { Config.default with diskRom := [0xA2, 0x20] }.wf = false := by decide

/-- A good row, and rows each of which one check refuses. -/
theorem test_wf_row : Row.wf ⟨0xA9, ⟨.lda, .imm, 2, 2, false, false⟩, .f2 .ldaImm⟩ = true ∧
    Row.lengthOk ⟨0xA9, ⟨.lda, .imm, 2, 3, false, false⟩, .f2 .ldaImm⟩ = false ∧
    Row.formOk ⟨0xA9, ⟨.lda, .imm, 2, 2, false, false⟩, .f1 .nop⟩ = false ∧
    Row.controlsPcOk ⟨0xA9, ⟨.lda, .imm, 2, 2, true, false⟩, .f2 .ldaImm⟩ = false ∧
    Row.controlsPcOk ⟨0x60, ⟨.rts, .imp, 6, 1, false, false⟩, .f1 .rts⟩ = false ∧
    Row.pagePenaltyOk ⟨0x91, ⟨.sta, .izy, 6, 2, false, true⟩, .f2 .staIzy⟩ = false ∧
    Row.pagePenaltyOk ⟨0xB1, ⟨.lda, .izy, 5, 2, false, false⟩, .f2 .ldaIzy⟩ = false := by decide

theorem test_wf_table : opcodeTable.all Row.wf = true := by decide +kernel

/-- Operands at the ends of their range are well formed (R107). -/
theorem test_wf_operands : (Instr.ldaAbs 0x0000).wf = true ∧ (Instr.jmpInd 0xFFFF).wf = true ∧
    (Instr.bne 0x80).wf = true := by decide

theorem test_wf_mem : Mem.wf [(0x10, 0x01), (0x20, 0x02)] = true ∧ Mem.wf [(0x20, 0x02), (0x10, 0x01)] = false ∧
    Mem.wf [(0x10, 0x01), (0x10, 0x02)] = false ∧ Mem.wf [(0x10, 0xCC)] = false ∧ Mem.wf [(0x10000, 0x01)] = false := by
  decide

theorem test_wf_drive : { Drive.initial with headPos := 68 }.wf Config.default = true ∧
    { Drive.initial with headPos := 69 }.wf Config.default = false ∧
    { Drive.initial with mediaPosition := 6864 }.wf Config.default = false := by decide

/-! ### Decoding: the "Encoding" lines, operand byte 0x4B, operand word 0x1F4B -/

/-- R200. -/
theorem test_decode_LDA :
    decode [0xA1, 0x4B] = .instr (.ldaIzx 0x4B) [] ∧
    decode [0xA5, 0x4B] = .instr (.ldaZp 0x4B) [] ∧
    decode [0xA9, 0x4B] = .instr (.ldaImm 0x4B) [] ∧
    decode [0xAD, 0x4B, 0x1F] = .instr (.ldaAbs 0x1F4B) [] ∧
    decode [0xB1, 0x4B] = .instr (.ldaIzy 0x4B) [] ∧
    decode [0xB5, 0x4B] = .instr (.ldaZpx 0x4B) [] ∧
    decode [0xB9, 0x4B, 0x1F] = .instr (.ldaAbsy 0x1F4B) [] ∧
    decode [0xBD, 0x4B, 0x1F] = .instr (.ldaAbsx 0x1F4B) [] := by decide +kernel

/-- R201. -/
theorem test_decode_LDX :
    decode [0xA2, 0x4B] = .instr (.ldxImm 0x4B) [] ∧
    decode [0xA6, 0x4B] = .instr (.ldxZp 0x4B) [] ∧
    decode [0xAE, 0x4B, 0x1F] = .instr (.ldxAbs 0x1F4B) [] ∧
    decode [0xB6, 0x4B] = .instr (.ldxZpy 0x4B) [] ∧
    decode [0xBE, 0x4B, 0x1F] = .instr (.ldxAbsy 0x1F4B) [] := by decide +kernel

/-- R202. -/
theorem test_decode_LDY :
    decode [0xA0, 0x4B] = .instr (.ldyImm 0x4B) [] ∧
    decode [0xA4, 0x4B] = .instr (.ldyZp 0x4B) [] ∧
    decode [0xAC, 0x4B, 0x1F] = .instr (.ldyAbs 0x1F4B) [] ∧
    decode [0xB4, 0x4B] = .instr (.ldyZpx 0x4B) [] ∧
    decode [0xBC, 0x4B, 0x1F] = .instr (.ldyAbsx 0x1F4B) [] := by decide +kernel

/-- R203. -/
theorem test_decode_STA :
    decode [0x81, 0x4B] = .instr (.staIzx 0x4B) [] ∧
    decode [0x85, 0x4B] = .instr (.staZp 0x4B) [] ∧
    decode [0x8D, 0x4B, 0x1F] = .instr (.staAbs 0x1F4B) [] ∧
    decode [0x91, 0x4B] = .instr (.staIzy 0x4B) [] ∧
    decode [0x95, 0x4B] = .instr (.staZpx 0x4B) [] ∧
    decode [0x99, 0x4B, 0x1F] = .instr (.staAbsy 0x1F4B) [] ∧
    decode [0x9D, 0x4B, 0x1F] = .instr (.staAbsx 0x1F4B) [] := by decide +kernel

/-- R204. -/
theorem test_decode_STX :
    decode [0x86, 0x4B] = .instr (.stxZp 0x4B) [] ∧
    decode [0x8E, 0x4B, 0x1F] = .instr (.stxAbs 0x1F4B) [] ∧
    decode [0x96, 0x4B] = .instr (.stxZpy 0x4B) [] := by decide +kernel

/-- R205. -/
theorem test_decode_STY :
    decode [0x84, 0x4B] = .instr (.styZp 0x4B) [] ∧
    decode [0x8C, 0x4B, 0x1F] = .instr (.styAbs 0x1F4B) [] ∧
    decode [0x94, 0x4B] = .instr (.styZpx 0x4B) [] := by decide +kernel

/-- R206. -/
theorem test_decode_TAX :
    decode [0xAA] = .instr .tax [] := by decide +kernel

/-- R207. -/
theorem test_decode_TAY :
    decode [0xA8] = .instr .tay [] := by decide +kernel

/-- R208. -/
theorem test_decode_TXA :
    decode [0x8A] = .instr .txa [] := by decide +kernel

/-- R209. -/
theorem test_decode_TYA :
    decode [0x98] = .instr .tya [] := by decide +kernel

/-- R210. -/
theorem test_decode_TSX :
    decode [0xBA] = .instr .tsx [] := by decide +kernel

/-- R211. -/
theorem test_decode_TXS :
    decode [0x9A] = .instr .txs [] := by decide +kernel

/-- R220. -/
theorem test_decode_PHA :
    decode [0x48] = .instr .pha [] := by decide +kernel

/-- R221. -/
theorem test_decode_PHP :
    decode [0x08] = .instr .php [] := by decide +kernel

/-- R222. -/
theorem test_decode_PLA :
    decode [0x68] = .instr .pla [] := by decide +kernel

/-- R223. -/
theorem test_decode_PLP :
    decode [0x28] = .instr .plp [] := by decide +kernel

/-- R241. -/
theorem test_decode_ADC :
    decode [0x61, 0x4B] = .instr (.adcIzx 0x4B) [] ∧
    decode [0x65, 0x4B] = .instr (.adcZp 0x4B) [] ∧
    decode [0x69, 0x4B] = .instr (.adcImm 0x4B) [] ∧
    decode [0x6D, 0x4B, 0x1F] = .instr (.adcAbs 0x1F4B) [] ∧
    decode [0x71, 0x4B] = .instr (.adcIzy 0x4B) [] ∧
    decode [0x75, 0x4B] = .instr (.adcZpx 0x4B) [] ∧
    decode [0x79, 0x4B, 0x1F] = .instr (.adcAbsy 0x1F4B) [] ∧
    decode [0x7D, 0x4B, 0x1F] = .instr (.adcAbsx 0x1F4B) [] := by decide +kernel

/-- R242. -/
theorem test_decode_SBC :
    decode [0xE1, 0x4B] = .instr (.sbcIzx 0x4B) [] ∧
    decode [0xE5, 0x4B] = .instr (.sbcZp 0x4B) [] ∧
    decode [0xE9, 0x4B] = .instr (.sbcImm 0x4B) [] ∧
    decode [0xED, 0x4B, 0x1F] = .instr (.sbcAbs 0x1F4B) [] ∧
    decode [0xF1, 0x4B] = .instr (.sbcIzy 0x4B) [] ∧
    decode [0xF5, 0x4B] = .instr (.sbcZpx 0x4B) [] ∧
    decode [0xF9, 0x4B, 0x1F] = .instr (.sbcAbsy 0x1F4B) [] ∧
    decode [0xFD, 0x4B, 0x1F] = .instr (.sbcAbsx 0x1F4B) [] := by decide +kernel

/-- R243. -/
theorem test_decode_AND :
    decode [0x21, 0x4B] = .instr (.andIzx 0x4B) [] ∧
    decode [0x25, 0x4B] = .instr (.andZp 0x4B) [] ∧
    decode [0x29, 0x4B] = .instr (.andImm 0x4B) [] ∧
    decode [0x2D, 0x4B, 0x1F] = .instr (.andAbs 0x1F4B) [] ∧
    decode [0x31, 0x4B] = .instr (.andIzy 0x4B) [] ∧
    decode [0x35, 0x4B] = .instr (.andZpx 0x4B) [] ∧
    decode [0x39, 0x4B, 0x1F] = .instr (.andAbsy 0x1F4B) [] ∧
    decode [0x3D, 0x4B, 0x1F] = .instr (.andAbsx 0x1F4B) [] := by decide +kernel

/-- R244. -/
theorem test_decode_ORA :
    decode [0x01, 0x4B] = .instr (.oraIzx 0x4B) [] ∧
    decode [0x05, 0x4B] = .instr (.oraZp 0x4B) [] ∧
    decode [0x09, 0x4B] = .instr (.oraImm 0x4B) [] ∧
    decode [0x0D, 0x4B, 0x1F] = .instr (.oraAbs 0x1F4B) [] ∧
    decode [0x11, 0x4B] = .instr (.oraIzy 0x4B) [] ∧
    decode [0x15, 0x4B] = .instr (.oraZpx 0x4B) [] ∧
    decode [0x19, 0x4B, 0x1F] = .instr (.oraAbsy 0x1F4B) [] ∧
    decode [0x1D, 0x4B, 0x1F] = .instr (.oraAbsx 0x1F4B) [] := by decide +kernel

/-- R245. -/
theorem test_decode_EOR :
    decode [0x41, 0x4B] = .instr (.eorIzx 0x4B) [] ∧
    decode [0x45, 0x4B] = .instr (.eorZp 0x4B) [] ∧
    decode [0x49, 0x4B] = .instr (.eorImm 0x4B) [] ∧
    decode [0x4D, 0x4B, 0x1F] = .instr (.eorAbs 0x1F4B) [] ∧
    decode [0x51, 0x4B] = .instr (.eorIzy 0x4B) [] ∧
    decode [0x55, 0x4B] = .instr (.eorZpx 0x4B) [] ∧
    decode [0x59, 0x4B, 0x1F] = .instr (.eorAbsy 0x1F4B) [] ∧
    decode [0x5D, 0x4B, 0x1F] = .instr (.eorAbsx 0x1F4B) [] := by decide +kernel

/-- R246. -/
theorem test_decode_BIT :
    decode [0x24, 0x4B] = .instr (.bitZp 0x4B) [] ∧
    decode [0x2C, 0x4B, 0x1F] = .instr (.bitAbs 0x1F4B) [] := by decide +kernel

/-- R247. -/
theorem test_decode_CMP :
    decode [0xC1, 0x4B] = .instr (.cmpIzx 0x4B) [] ∧
    decode [0xC5, 0x4B] = .instr (.cmpZp 0x4B) [] ∧
    decode [0xC9, 0x4B] = .instr (.cmpImm 0x4B) [] ∧
    decode [0xCD, 0x4B, 0x1F] = .instr (.cmpAbs 0x1F4B) [] ∧
    decode [0xD1, 0x4B] = .instr (.cmpIzy 0x4B) [] ∧
    decode [0xD5, 0x4B] = .instr (.cmpZpx 0x4B) [] ∧
    decode [0xD9, 0x4B, 0x1F] = .instr (.cmpAbsy 0x1F4B) [] ∧
    decode [0xDD, 0x4B, 0x1F] = .instr (.cmpAbsx 0x1F4B) [] := by decide +kernel

/-- R248. -/
theorem test_decode_CPX :
    decode [0xE0, 0x4B] = .instr (.cpxImm 0x4B) [] ∧
    decode [0xE4, 0x4B] = .instr (.cpxZp 0x4B) [] ∧
    decode [0xEC, 0x4B, 0x1F] = .instr (.cpxAbs 0x1F4B) [] := by decide +kernel

/-- R249. -/
theorem test_decode_CPY :
    decode [0xC0, 0x4B] = .instr (.cpyImm 0x4B) [] ∧
    decode [0xC4, 0x4B] = .instr (.cpyZp 0x4B) [] ∧
    decode [0xCC, 0x4B, 0x1F] = .instr (.cpyAbs 0x1F4B) [] := by decide +kernel

/-- R270. -/
theorem test_decode_INC :
    decode [0xE6, 0x4B] = .instr (.incZp 0x4B) [] ∧
    decode [0xEE, 0x4B, 0x1F] = .instr (.incAbs 0x1F4B) [] ∧
    decode [0xF6, 0x4B] = .instr (.incZpx 0x4B) [] ∧
    decode [0xFE, 0x4B, 0x1F] = .instr (.incAbsx 0x1F4B) [] := by decide +kernel

/-- R271. -/
theorem test_decode_DEC :
    decode [0xC6, 0x4B] = .instr (.decZp 0x4B) [] ∧
    decode [0xCE, 0x4B, 0x1F] = .instr (.decAbs 0x1F4B) [] ∧
    decode [0xD6, 0x4B] = .instr (.decZpx 0x4B) [] ∧
    decode [0xDE, 0x4B, 0x1F] = .instr (.decAbsx 0x1F4B) [] := by decide +kernel

/-- R272. -/
theorem test_decode_INX :
    decode [0xE8] = .instr .inx [] := by decide +kernel

/-- R273. -/
theorem test_decode_INY :
    decode [0xC8] = .instr .iny [] := by decide +kernel

/-- R274. -/
theorem test_decode_DEX :
    decode [0xCA] = .instr .dex [] := by decide +kernel

/-- R275. -/
theorem test_decode_DEY :
    decode [0x88] = .instr .dey [] := by decide +kernel

/-- R276. -/
theorem test_decode_ASL :
    decode [0x06, 0x4B] = .instr (.aslZp 0x4B) [] ∧
    decode [0x0A] = .instr .aslAcc [] ∧
    decode [0x0E, 0x4B, 0x1F] = .instr (.aslAbs 0x1F4B) [] ∧
    decode [0x16, 0x4B] = .instr (.aslZpx 0x4B) [] ∧
    decode [0x1E, 0x4B, 0x1F] = .instr (.aslAbsx 0x1F4B) [] := by decide +kernel

/-- R277. -/
theorem test_decode_LSR :
    decode [0x46, 0x4B] = .instr (.lsrZp 0x4B) [] ∧
    decode [0x4A] = .instr .lsrAcc [] ∧
    decode [0x4E, 0x4B, 0x1F] = .instr (.lsrAbs 0x1F4B) [] ∧
    decode [0x56, 0x4B] = .instr (.lsrZpx 0x4B) [] ∧
    decode [0x5E, 0x4B, 0x1F] = .instr (.lsrAbsx 0x1F4B) [] := by decide +kernel

/-- R278. -/
theorem test_decode_ROL :
    decode [0x26, 0x4B] = .instr (.rolZp 0x4B) [] ∧
    decode [0x2A] = .instr .rolAcc [] ∧
    decode [0x2E, 0x4B, 0x1F] = .instr (.rolAbs 0x1F4B) [] ∧
    decode [0x36, 0x4B] = .instr (.rolZpx 0x4B) [] ∧
    decode [0x3E, 0x4B, 0x1F] = .instr (.rolAbsx 0x1F4B) [] := by decide +kernel

/-- R279. -/
theorem test_decode_ROR :
    decode [0x66, 0x4B] = .instr (.rorZp 0x4B) [] ∧
    decode [0x6A] = .instr .rorAcc [] ∧
    decode [0x6E, 0x4B, 0x1F] = .instr (.rorAbs 0x1F4B) [] ∧
    decode [0x76, 0x4B] = .instr (.rorZpx 0x4B) [] ∧
    decode [0x7E, 0x4B, 0x1F] = .instr (.rorAbsx 0x1F4B) [] := by decide +kernel

/-- R301. -/
theorem test_decode_BCC :
    decode [0x90, 0x4B] = .instr (.bcc 0x4B) [] := by decide +kernel

/-- R302. -/
theorem test_decode_BCS :
    decode [0xB0, 0x4B] = .instr (.bcs 0x4B) [] := by decide +kernel

/-- R303. -/
theorem test_decode_BEQ :
    decode [0xF0, 0x4B] = .instr (.beq 0x4B) [] := by decide +kernel

/-- R304. -/
theorem test_decode_BNE :
    decode [0xD0, 0x4B] = .instr (.bne 0x4B) [] := by decide +kernel

/-- R305. -/
theorem test_decode_BMI :
    decode [0x30, 0x4B] = .instr (.bmi 0x4B) [] := by decide +kernel

/-- R306. -/
theorem test_decode_BPL :
    decode [0x10, 0x4B] = .instr (.bpl 0x4B) [] := by decide +kernel

/-- R307. -/
theorem test_decode_BVC :
    decode [0x50, 0x4B] = .instr (.bvc 0x4B) [] := by decide +kernel

/-- R308. -/
theorem test_decode_BVS :
    decode [0x70, 0x4B] = .instr (.bvs 0x4B) [] := by decide +kernel

/-- R309. -/
theorem test_decode_JMP :
    decode [0x4C, 0x4B, 0x1F] = .instr (.jmpAbs 0x1F4B) [] ∧
    decode [0x6C, 0x4B, 0x1F] = .instr (.jmpInd 0x1F4B) [] := by decide +kernel

/-- R310. -/
theorem test_decode_JSR :
    decode [0x20, 0x4B, 0x1F] = .instr (.jsr 0x1F4B) [] := by decide +kernel

/-- R311. -/
theorem test_decode_RTS :
    decode [0x60] = .instr .rts [] := by decide +kernel

/-- R312. -/
theorem test_decode_RTI :
    decode [0x40] = .instr .rti [] := by decide +kernel

/-- R313. -/
theorem test_decode_BRK :
    decode [0x00] = .instr .brk [] := by decide +kernel

/-- R330. -/
theorem test_decode_CLC :
    decode [0x18] = .instr .clc [] := by decide +kernel

/-- R331. -/
theorem test_decode_SEC :
    decode [0x38] = .instr .sec [] := by decide +kernel

/-- R332. -/
theorem test_decode_CLI :
    decode [0x58] = .instr .cli [] := by decide +kernel

/-- R333. -/
theorem test_decode_SEI :
    decode [0x78] = .instr .sei [] := by decide +kernel

/-- R334. -/
theorem test_decode_CLD :
    decode [0xD8] = .instr .cld [] := by decide +kernel

/-- R335. -/
theorem test_decode_SED :
    decode [0xF8] = .instr .sed [] := by decide +kernel

/-- R336. -/
theorem test_decode_CLV :
    decode [0xB8] = .instr .clv [] := by decide +kernel

/-- R337. -/
theorem test_decode_NOP :
    decode [0xEA] = .instr .nop [] := by decide +kernel

/-- R106, and bytes that end too soon. -/
theorem test_decode_absent : decode [0x02, 0x00] = .absent 0x02 ∧ decode [0xFF] = .absent 0xFF ∧
    decode [0xA9] = .truncated ∧ decode [0x4C, 0x34] = .truncated := by decide +kernel

theorem test_table_word : decodeTableWord 8 0xAA = some .tax ∧ decodeTableWord 16 0xFED0 = some (.bne 0xFE) ∧
    decodeTableWord 24 0x12348D = some (.staAbs 0x1234) ∧ decodeTableWord 8 0x8D = some (.staAbs 0x0000) ∧
    decodeTableWord 8 0x02 = none := by decide +kernel

/-- A placed word is what the next step runs, from reset: PC is 0xCCCC. -/
theorem test_fetch_word : after (step (State.reset.withFetchWord 16 0x41A9)) (fun t => t.a == 0x41 && t.pc == 0xCCCE) ∧
    after (step (State.reset.withFetchWord 24 0x12344C)) (fun t => t.pc == 0x1234) := by decide +kernel

/-- R108: the text of an instruction, and the displacement of a branch. -/
theorem test_text : (Instr.bne 0xFE).text 0x0300 = some "BNE $0300" ∧ (Instr.jmpInd 0x1234).text 0 = some "JMP ($1234)" ∧
    (Instr.ldaIzy 0x0A).text 0 = some "LDA ($0A),Y" ∧ Instr.aslAcc.text 0 = some "ASL A" ∧
    branchDisplacement 0x0300 0x0381 = some 0x7F ∧ branchDisplacement 0x0300 0x0382 = none ∧
    branchDisplacement 0x0300 0x0282 = some 0x80 ∧ branchDisplacement 0x0300 0x0281 = none := by decide +kernel

/-! ### One step (95_test_vectors.md section 3) -/

theorem test_LS4 :
    regs (step (placed [0xBD, 0xF0, 0x12] [(0x1310, 0x01)] { start with x := 0x20 })) =
      some ⟨0x01, 0x20, 0x00, 0xFF, 0x0303, flags [], 5⟩ := by decide +kernel

theorem test_LS6 :
    regs (step (placed [0xA1, 0xFE] [(0x00FF, 0x34), (0x0000, 0x12), (0x0100, 0x99), (0x1234, 0xC3)] { start with x := 0x01 })) =
      some ⟨0xC3, 0x01, 0x00, 0xFF, 0x0302, flags [.n], 6⟩ := by decide +kernel

theorem test_LS8 :
    regs (step (placed [0xB6, 0xFF] [(0x0001, 0x00)] { start with y := 0x02 })) =
      some ⟨0x00, 0x00, 0x02, 0xFF, 0x0302, flags [.z], 4⟩ := by decide +kernel

theorem test_LS9 :
    regs (step (placed [0xBC, 0x00, 0x20] [(0x2005, 0x90)] { start with x := 0x05 })) =
      some ⟨0x00, 0x05, 0x90, 0xFF, 0x0303, flags [.n], 4⟩ := by decide +kernel

theorem test_LS11 :
    (let o := step (placed [0x9D, 0xF0, 0x12] [] { start with a := 0x5A, x := 0x20 })
     regs o = some ⟨0x5A, 0x20, 0x00, 0xFF, 0x0303, flags [], 5⟩ ∧
      byteAt o 0x1310 = some 0x5A) := by decide +kernel

theorem test_LS12 :
    (let o := step (placed [0x91, 0x40] [(0x0040, 0xF8), (0x0041, 0x20)] { start with a := 0x77, y := 0x10 })
     regs o = some ⟨0x77, 0x00, 0x10, 0xFF, 0x0302, flags [], 6⟩ ∧
      byteAt o 0x2108 = some 0x77) := by decide +kernel

theorem test_LS13 :
    (let o := step (placed [0x96, 0xFF] [] { start with x := 0x3C, y := 0x01 })
     regs o = some ⟨0x00, 0x3C, 0x01, 0xFF, 0x0302, flags [], 4⟩ ∧
      byteAt o 0x0000 = some 0x3C) := by decide +kernel

theorem test_LS14 :
    (let o := step (placed [0x94, 0x80] [] { start with x := 0x01, y := 0xC4 })
     regs o = some ⟨0x00, 0x01, 0xC4, 0xFF, 0x0302, flags [], 4⟩ ∧
      byteAt o 0x0081 = some 0xC4) := by decide +kernel

theorem test_LS15 :
    regs (step (placed [0xAA] [] { start with x := 0x33 })) =
      some ⟨0x00, 0x00, 0x00, 0xFF, 0x0301, flags [.z], 2⟩ := by decide +kernel

theorem test_LS16 :
    regs (step (placed [0xA8] [] { start with a := 0xF0 })) =
      some ⟨0xF0, 0x00, 0xF0, 0xFF, 0x0301, flags [.n], 2⟩ := by decide +kernel

theorem test_LS17 :
    regs (step (placed [0x8A] [] { start with x := 0x7F })) =
      some ⟨0x7F, 0x7F, 0x00, 0xFF, 0x0301, flags [], 2⟩ := by decide +kernel

theorem test_LS18 :
    regs (step (placed [0x98] [] { start with a := 0x12 })) =
      some ⟨0x00, 0x00, 0x00, 0xFF, 0x0301, flags [.z], 2⟩ := by decide +kernel

theorem test_LS19 :
    regs (step (placed [0xBA] [] { start with x := 0x44, sp := 0x00 })) =
      some ⟨0x00, 0x00, 0x00, 0x00, 0x0301, flags [.z], 2⟩ := by decide +kernel

theorem test_LS20 :
    regs (step (placed [0x9A] [] { start with x := 0x80 })) =
      some ⟨0x00, 0x80, 0x00, 0x80, 0x0301, flags [], 2⟩ := by decide +kernel

theorem test_ST2 :
    (let o := step (placed [0x48] [] { start with a := 0x01, sp := 0x00 })
     regs o = some ⟨0x01, 0x00, 0x00, 0xFF, 0x0301, flags [], 3⟩ ∧
      byteAt o 0x0100 = some 0x01) := by decide +kernel

theorem test_ST3 :
    (let o := step (placed [0x08] [] start)
     regs o = some ⟨0x00, 0x00, 0x00, 0xFE, 0x0301, flags [], 3⟩ ∧
      byteAt o 0x01FF = some 0x30) := by decide +kernel

theorem test_ST4 :
    (let o := step (placed [0x08] [] { start with p := flags [.n, .v, .d, .i, .z, .c] })
     regs o = some ⟨0x00, 0x00, 0x00, 0xFE, 0x0301, flags [.n, .v, .d, .i, .z, .c], 3⟩ ∧
      byteAt o 0x01FF = some 0xFF) := by decide +kernel

theorem test_ST6 :
    regs (step (placed [0x68] [(0x0100, 0x80)] start)) =
      some ⟨0x80, 0x00, 0x00, 0x00, 0x0301, flags [.n], 4⟩ := by decide +kernel

theorem test_ST7 :
    regs (step (placed [0x28] [(0x01FF, 0xFF)] { start with sp := 0xFE })) =
      some ⟨0x00, 0x00, 0x00, 0xFF, 0x0301, flags [.n, .v, .d, .i, .z, .c], 4⟩ := by decide +kernel

theorem test_ST8 :
    regs (step (placed [0x28] [(0x01FF, 0x30)] { start with sp := 0xFE, p := flags [.n, .v, .d, .i, .z, .c] })) =
      some ⟨0x00, 0x00, 0x00, 0xFF, 0x0301, flags [], 4⟩ := by decide +kernel

theorem test_AL4 :
    regs (step (placed [0x69, 0xFF] [] { start with a := 0x80 })) =
      some ⟨0x7F, 0x00, 0x00, 0xFF, 0x0302, flags [.v, .c], 2⟩ := by decide +kernel

theorem test_AL8 :
    regs (step (placed [0x69, 0x46] [] { start with a := 0x58, p := flags [.d, .c] })) =
      some ⟨0x05, 0x00, 0x00, 0xFF, 0x0302, flags [.v, .d, .c], 2⟩ := by decide +kernel

theorem test_AL13 :
    regs (step (placed [0xE9, 0x01] [] { start with a := 0x80, p := flags [.c] })) =
      some ⟨0x7F, 0x00, 0x00, 0xFF, 0x0302, flags [.v, .c], 2⟩ := by decide +kernel

theorem test_AL21 :
    regs (step (placed [0xE9, 0x21] [] { start with a := 0x12, p := flags [.d, .c] })) =
      some ⟨0x91, 0x00, 0x00, 0xFF, 0x0302, flags [.n, .d], 2⟩ := by decide +kernel

theorem test_AL22 :
    regs (step (placed [0x29, 0x0F] [] { start with a := 0xF0 })) =
      some ⟨0x00, 0x00, 0x00, 0xFF, 0x0302, flags [.z], 2⟩ := by decide +kernel

theorem test_AL23 :
    regs (step (placed [0x29, 0xFF] [] { start with a := 0x80 })) =
      some ⟨0x80, 0x00, 0x00, 0xFF, 0x0302, flags [.n], 2⟩ := by decide +kernel

theorem test_AL24 :
    regs (step (placed [0x09, 0x80] [] { start with a := 0x01 })) =
      some ⟨0x81, 0x00, 0x00, 0xFF, 0x0302, flags [.n], 2⟩ := by decide +kernel

theorem test_AL27 :
    regs (step (placed [0x49, 0xFF] [] { start with a := 0x0F })) =
      some ⟨0xF0, 0x00, 0x00, 0xFF, 0x0302, flags [.n], 2⟩ := by decide +kernel

theorem test_AL28 :
    regs (step (placed [0x24, 0x10] [(0x0010, 0xC0)] { start with a := 0x01 })) =
      some ⟨0x01, 0x00, 0x00, 0xFF, 0x0302, flags [.n, .v, .z], 3⟩ := by decide +kernel

theorem test_AL29 :
    regs (step (placed [0x2C, 0x00, 0x20] [(0x2000, 0x01)] { start with a := 0xFF, p := flags [.n, .v, .z] })) =
      some ⟨0xFF, 0x00, 0x00, 0xFF, 0x0303, flags [], 4⟩ := by decide +kernel

theorem test_AL32 :
    regs (step (placed [0xC9, 0x00] [] { start with a := 0x80 })) =
      some ⟨0x80, 0x00, 0x00, 0xFF, 0x0302, flags [.n, .c], 2⟩ := by decide +kernel

theorem test_AL34 :
    regs (step (placed [0xE0, 0x10] [] { start with x := 0x20 })) =
      some ⟨0x00, 0x20, 0x00, 0xFF, 0x0302, flags [.c], 2⟩ := by decide +kernel

theorem test_AL35 :
    regs (step (placed [0xC0, 0x20] [] { start with y := 0x10 })) =
      some ⟨0x00, 0x00, 0x10, 0xFF, 0x0302, flags [.n], 2⟩ := by decide +kernel

theorem test_AL36 :
    regs (step (placed [0xD9, 0xFF, 0x10] [(0x1100, 0x05)] { start with a := 0x05, y := 0x01 })) =
      some ⟨0x05, 0x00, 0x01, 0xFF, 0x0303, flags [.z, .c], 5⟩ := by decide +kernel

theorem test_ID1 :
    (let o := step (placed [0xE6, 0x10] [(0x0010, 0xFF)] start)
     regs o = some ⟨0x00, 0x00, 0x00, 0xFF, 0x0302, flags [.z], 5⟩ ∧
      byteAt o 0x0010 = some 0x00) := by decide +kernel

theorem test_ID2 :
    (let o := step (placed [0xFE, 0xF0, 0x12] [(0x1310, 0x7F)] { start with x := 0x20 })
     regs o = some ⟨0x00, 0x20, 0x00, 0xFF, 0x0303, flags [.n], 7⟩ ∧
      byteAt o 0x1310 = some 0x80) := by decide +kernel

theorem test_ID3 :
    (let o := step (placed [0xC6, 0x10] [(0x0010, 0x00)] start)
     regs o = some ⟨0x00, 0x00, 0x00, 0xFF, 0x0302, flags [.n], 5⟩ ∧
      byteAt o 0x0010 = some 0xFF) := by decide +kernel

theorem test_ID5 :
    regs (step (placed [0xE8] [] { start with x := 0xFF })) =
      some ⟨0x00, 0x00, 0x00, 0xFF, 0x0301, flags [.z], 2⟩ := by decide +kernel

theorem test_ID6 :
    regs (step (placed [0xC8] [] { start with y := 0x7F })) =
      some ⟨0x00, 0x00, 0x80, 0xFF, 0x0301, flags [.n], 2⟩ := by decide +kernel

theorem test_ID7 :
    regs (step (placed [0xCA] [] start)) =
      some ⟨0x00, 0xFF, 0x00, 0xFF, 0x0301, flags [.n], 2⟩ := by decide +kernel

theorem test_ID8 :
    regs (step (placed [0x88] [] { start with y := 0x01 })) =
      some ⟨0x00, 0x00, 0x00, 0xFF, 0x0301, flags [.z], 2⟩ := by decide +kernel

theorem test_ID9 :
    regs (step (placed [0x0A] [] { start with a := 0x80 })) =
      some ⟨0x00, 0x00, 0x00, 0xFF, 0x0301, flags [.z, .c], 2⟩ := by decide +kernel

theorem test_ID10 :
    (let o := step (placed [0x06, 0x10] [(0x0010, 0x41)] { start with p := flags [.c] })
     regs o = some ⟨0x00, 0x00, 0x00, 0xFF, 0x0302, flags [.n], 5⟩ ∧
      byteAt o 0x0010 = some 0x82) := by decide +kernel

theorem test_ID11 :
    regs (step (placed [0x4A] [] { start with a := 0x01, p := flags [.n] })) =
      some ⟨0x00, 0x00, 0x00, 0xFF, 0x0301, flags [.z, .c], 2⟩ := by decide +kernel

theorem test_ID12 :
    (let o := step (placed [0x4E, 0x00, 0x20] [(0x2000, 0xFE)] start)
     regs o = some ⟨0x00, 0x00, 0x00, 0xFF, 0x0303, flags [], 6⟩ ∧
      byteAt o 0x2000 = some 0x7F) := by decide +kernel

theorem test_ID13 :
    regs (step (placed [0x2A] [] { start with a := 0x80 })) =
      some ⟨0x00, 0x00, 0x00, 0xFF, 0x0301, flags [.z, .c], 2⟩ := by decide +kernel

theorem test_ID14 :
    regs (step (placed [0x2A] [] { start with a := 0x40, p := flags [.c] })) =
      some ⟨0x81, 0x00, 0x00, 0xFF, 0x0301, flags [.n], 2⟩ := by decide +kernel

theorem test_ID15 :
    regs (step (placed [0x6A] [] { start with a := 0x01 })) =
      some ⟨0x00, 0x00, 0x00, 0xFF, 0x0301, flags [.z, .c], 2⟩ := by decide +kernel

theorem test_ID17 :
    (let o := step (placed [0x76, 0xFF] [(0x0000, 0x02)] { start with x := 0x01, p := flags [.c] })
     regs o = some ⟨0x00, 0x01, 0x00, 0xFF, 0x0302, flags [.n], 6⟩ ∧
      byteAt o 0x0000 = some 0x81) := by decide +kernel

theorem test_CT2 :
    regs (step (placed [0xF0, 0x10] [] start)) =
      some ⟨0x00, 0x00, 0x00, 0xFF, 0x0302, flags [], 2⟩ := by decide +kernel

theorem test_CT3 :
    regs (step (placed [0x30, 0x01] [] { start with pc := 0x12FD, p := flags [.n] })) =
      some ⟨0x00, 0x00, 0x00, 0xFF, 0x1300, flags [.n], 4⟩ := by decide +kernel

theorem test_CT4 :
    regs (step (placed [0x50, 0x80] [] { start with pc := 0x0400 })) =
      some ⟨0x00, 0x00, 0x00, 0xFF, 0x0382, flags [], 4⟩ := by decide +kernel

theorem test_CT5 :
    regs (step (placed [0xD0, 0xFE] [] start)) =
      some ⟨0x00, 0x00, 0x00, 0xFF, 0x0300, flags [], 3⟩ := by decide +kernel

theorem test_CT6 :
    regs (step (placed [0xD0, 0x7F] [] start)) =
      some ⟨0x00, 0x00, 0x00, 0xFF, 0x0381, flags [], 3⟩ := by decide +kernel

theorem test_CT7 :
    regs (step (placed [0x90, 0x00] [] start)) =
      some ⟨0x00, 0x00, 0x00, 0xFF, 0x0302, flags [], 3⟩ := by decide +kernel

theorem test_CT8 :
    regs (step (placed [0xB0, 0x05] [] { start with p := flags [.c] })) =
      some ⟨0x00, 0x00, 0x00, 0xFF, 0x0307, flags [.c], 3⟩ := by decide +kernel

theorem test_CT9 :
    regs (step (placed [0x10, 0xFC] [] { start with pc := 0x0010 })) =
      some ⟨0x00, 0x00, 0x00, 0xFF, 0x000E, flags [], 3⟩ := by decide +kernel

theorem test_CT10 :
    regs (step (placed [0x70, 0x02] [] { start with p := flags [.v] })) =
      some ⟨0x00, 0x00, 0x00, 0xFF, 0x0304, flags [.v], 3⟩ := by decide +kernel

theorem test_CT11 :
    regs (step (placed [0xF0, 0x02] [] { start with pc := 0xFFFE, p := flags [.z] })) =
      some ⟨0x00, 0x00, 0x00, 0xFF, 0x0002, flags [.z], 3⟩ := by decide +kernel

theorem test_CT12 :
    regs (step (placed [0x4C, 0x34, 0x12] [] start)) =
      some ⟨0x00, 0x00, 0x00, 0xFF, 0x1234, flags [], 3⟩ := by decide +kernel

theorem test_CT14 :
    regs (step (placed [0x6C, 0xFF, 0x12] [(0x12FF, 0x80), (0x1200, 0x50), (0x1300, 0x60)] start)) =
      some ⟨0x00, 0x00, 0x00, 0xFF, 0x5080, flags [], 5⟩ := by decide +kernel

theorem test_CT15 :
    (let o := step (placed [0x20, 0x34, 0x12] [] start)
     regs o = some ⟨0x00, 0x00, 0x00, 0xFD, 0x1234, flags [], 6⟩ ∧
      byteAt o 0x01FF = some 0x03 ∧ byteAt o 0x01FE = some 0x02) := by decide +kernel

theorem test_CT16 :
    regs (step (placed [0x60] [(0x01FE, 0x02), (0x01FF, 0x03)] { start with sp := 0xFD, pc := 0x1234 })) =
      some ⟨0x00, 0x00, 0x00, 0xFF, 0x0303, flags [], 6⟩ := by decide +kernel

theorem test_CT17 :
    regs (step (placed [0x40] [(0x01FB, 0x33), (0x01FC, 0x02), (0x01FD, 0x03)] { start with sp := 0xFA, pc := 0x2000 })) =
      some ⟨0x00, 0x00, 0x00, 0xFD, 0x0302, flags [.z, .c], 6⟩ := by decide +kernel

theorem test_CT18 :
    (let o := step (placed [0x00, 0xEA] [(0xFFFE, 0x00), (0xFFFF, 0x80)] { start with p := flags [.z] })
     regs o = some ⟨0x00, 0x00, 0x00, 0xFC, 0x8000, flags [.b, .i, .z], 7⟩ ∧
      byteAt o 0x01FF = some 0x03 ∧ byteAt o 0x01FE = some 0x02 ∧ byteAt o 0x01FD = some 0x32) := by decide +kernel

theorem test_CT19 :
    (let o := step (placed [0x00] [(0xFFFE, 0x00), (0xFFFF, 0x80)] { start with p := flags [.d, .z] })
     regs o = some ⟨0x00, 0x00, 0x00, 0xFC, 0x8000, flags [.b, .d, .i, .z], 7⟩ ∧
      byteAt o 0x01FD = some 0x3A) := by decide +kernel

theorem test_FL1 :
    regs (step (placed [0x18] [] { start with p := flags [.c] })) =
      some ⟨0x00, 0x00, 0x00, 0xFF, 0x0301, flags [], 2⟩ := by decide +kernel

theorem test_FL2 :
    regs (step (placed [0x38] [] start)) =
      some ⟨0x00, 0x00, 0x00, 0xFF, 0x0301, flags [.c], 2⟩ := by decide +kernel

theorem test_FL3 :
    regs (step (placed [0x58] [] { start with p := flags [.i] })) =
      some ⟨0x00, 0x00, 0x00, 0xFF, 0x0301, flags [], 2⟩ := by decide +kernel

theorem test_FL4 :
    regs (step (placed [0x78] [] start)) =
      some ⟨0x00, 0x00, 0x00, 0xFF, 0x0301, flags [.i], 2⟩ := by decide +kernel

theorem test_FL5 :
    regs (step (placed [0xD8] [] { start with p := flags [.d] })) =
      some ⟨0x00, 0x00, 0x00, 0xFF, 0x0301, flags [], 2⟩ := by decide +kernel

theorem test_FL6 :
    regs (step (placed [0xF8] [] start)) =
      some ⟨0x00, 0x00, 0x00, 0xFF, 0x0301, flags [.d], 2⟩ := by decide +kernel

theorem test_FL7 :
    regs (step (placed [0xB8] [] { start with p := flags [.v] })) =
      some ⟨0x00, 0x00, 0x00, 0xFF, 0x0301, flags [], 2⟩ := by decide +kernel

theorem test_FL8 :
    regs (step (placed [0xEA] [] { start with a := 0x12, x := 0x34, y := 0x56, p := flags [.n, .z, .c] })) =
      some ⟨0x12, 0x34, 0x56, 0xFF, 0x0301, flags [.n, .z, .c], 2⟩ := by decide +kernel

theorem test_EX1 :
    (let s := placed [0x02] [] { start with a := 0x12 }
     faultOf (step s) = some (.invalidOpcode 0x0300 s)) := by decide +kernel

/-- The decimal vectors AL6 to AL10 and AL16 to AL20, on the result functions. -/
theorem test_decimal_results :
    ((adcResult true 0x15 0x27 false).r, (adcResult true 0x15 0x27 false).c) = (0x42, false) ∧
    ((adcResult true 0x99 0x01 false).r, (adcResult true 0x99 0x01 false).z) = (0x00, true) ∧
    (adcResult true 0x0F 0x00 false).r = 0x15 ∧
    ((adcResult true 0x79 0x00 true).r, (adcResult true 0x79 0x00 true).n) = (0x80, true) ∧
    ((sbcResult true 0x42 0x15 true).r, (sbcResult true 0x42 0x15 true).c) = (0x27, true) ∧
    ((sbcResult true 0x00 0x01 true).r, (sbcResult true 0x00 0x01 true).c) = (0x99, false) ∧
    (sbcResult true 0x40 0x13 true).r = 0x27 ∧ (sbcResult true 0x32 0x02 false).r = 0x29 := by decide +kernel

/-! ### Addressing (section 4.1) -/

/-- The effective address and the crossing flag. -/
def address (m : MemMode) (s : State) : Option (Word × Bool) :=
  match effAddr m s with
  | .ok (r, _) => some r
  | .error _ => none

theorem test_AM3_AM4 : address (.zpx 0xF0) { start with x := 0x20 } = some (0x0010, false) ∧
    address (.zpy 0xFF) { start with y := 0x02 } = some (0x0001, false) := by decide +kernel

theorem test_AM6_AM7 : address (.absx 0x12F0) { start with x := 0x20 } = some (0x1310, true) ∧
    address (.absy 0xFFFF) { start with y := 0x02 } = some (0x0001, true) ∧
    address (.absx 0x1200) { start with x := 0x20 } = some (0x1220, false) := by decide +kernel

theorem test_AM8 : address (.izx 0xFE) (placed [] [(0x00FF, 0x34), (0x0000, 0x12)] { start with x := 0x01 }) =
    some (0x1234, false) := by decide +kernel

theorem test_AM9_AM10 : address (.izy 0x40) (placed [] [(0x0040, 0xF8), (0x0041, 0x20)] { start with y := 0x10 }) =
      some (0x2108, true) ∧
    address (.izy 0xFF) (placed [] [(0x00FF, 0x00), (0x0000, 0x30)] start) = some (0x3000, false) := by
  decide +kernel

theorem test_AM11 : after (step (placed [0x6C, 0xFF, 0x12] [(0x12FF, 0x80), (0x1200, 0x50), (0x1300, 0x60)]
    { start with cfg := { Config.default with jmpIndWrap := false } })) (fun t => t.pc == 0x6080) = true := by
  decide +kernel

/-! ### Access order (section 4.2) -/

/-- A state whose every access is noted. -/
def watched (s : State) : State :=
  { s with readHooks := [⟨0x0000, 0xFFFF, true, .recorder⟩], writeHooks := [⟨0x0000, 0xFFFF, true, .recorder⟩] }

/-- The accesses of one step. -/
def accesses (bytes : List Byte) (cells : List (Word × Byte)) (s : State) : Option (List Access) :=
  match step (watched (placed bytes cells s)) with
  | .next t => some t.dev.busLog
  | .fault _ => none
  | .refused _ => none

theorem test_AO1 : accesses [0xEE, 0x00, 0x20] [(0x2000, 0x05)] start =
    some [.rd 0x0300, .rd 0x0301, .rd 0x0302, .rd 0x2000, .wr 0x2000 0x06] := by decide +kernel

theorem test_AO2 : accesses [0x0A] [] start = some [.rd 0x0300] := by decide +kernel

theorem test_AO3 : accesses [0xB1, 0x40] [(0x0040, 0xF8), (0x0041, 0x20)] { start with y := 0x10 } =
    some [.rd 0x0300, .rd 0x0301, .rd 0x0040, .rd 0x0041, .rd 0x2108] := by decide +kernel

theorem test_AO5 : accesses [0x9D, 0xF0, 0x12] [] { start with x := 0x20 } =
    some [.rd 0x0300, .rd 0x0301, .rd 0x0302, .wr 0x1310 0x00] := by decide +kernel

theorem test_AO6 : accesses [0x20, 0x34, 0x12] [] start =
    some [.rd 0x0300, .rd 0x0301, .rd 0x0302, .wr 0x01FF 0x03, .wr 0x01FE 0x02] := by decide +kernel

theorem test_AO8 : accesses [0x00] [] start =
    some [.rd 0x0300, .wr 0x01FF 0x03, .wr 0x01FE 0x02, .wr 0x01FD 0x30, .rd 0xFFFE, .rd 0xFFFF] := by
  decide +kernel

theorem test_AO9 : accesses [0x40] [] { start with sp := 0xFC } =
    some [.rd 0x0300, .rd 0x01FD, .rd 0x01FE, .rd 0x01FF] := by decide +kernel

theorem test_AO12 : accesses [0x6C, 0xFF, 0x12] [] start =
    some [.rd 0x0300, .rd 0x0301, .rd 0x0302, .rd 0x12FF, .rd 0x1200] := by decide +kernel

theorem test_AO13 : accesses [0xD0, 0x10] [] start = some [.rd 0x0300, .rd 0x0301] := by decide +kernel

/-! ### The bus (section 5) -/

/-- The hooks of BUS1, the first with the bypass flag given. -/
def bus1 (bypass : Bool) : State := placed [] [(0x2000, 0x77)]
  { start with readHooks := [⟨0x2000, 0x20FF, bypass, .const (some 0x5A)⟩, ⟨0x2000, 0x2000, false, .const (some 0x11)⟩] }

theorem test_BUS1_BUS9 : byteOf (readByte 0x2000 (bus1 false)) = some 0x5A ∧
    byteOf (hostRead 0x2000 true (bus1 false)) = some 0x77 := by decide +kernel

theorem test_BUS2_BUS3 : byteOf (readByte 0x2000 (bus1 true)) = some 0x11 ∧
    byteOf (readByte 0x2001 (bus1 true)) = some 0xCC ∧ byteOf (readByte 0x2100 (bus1 true)) = some 0xCC := by
  decide +kernel

/-- Page 40 Unmapped over 33, page 50 ReadOnly over 44. -/
def bus4 : State := placed [] [(0x4000, 0x33), (0x5000, 0x44)]
  { start with pageModes := [(0x40, .unmapped), (0x50, .readOnly)] }

theorem test_BUS4 : (let s := writeByte 0x5000 0x99 (writeByte 0x4000 0x99 bus4)
    s = bus4 ∧ byteOf (readByte 0x4000 s) = some 0x00 ∧ byteOf (readByte 0x5000 s) = some 0x44) := by decide +kernel

theorem test_BUS6_BUS7 :
    Mem.read (writeByte 0x0300 0x5C (placed [0x00] [] { start with writeHooks := [⟨0x0300, 0x0300, false, .recorder⟩] })).mem
      0x0300 = 0x00 ∧
    Mem.read (writeByte 0x0301 0x6D { start with writeHooks := [⟨0x0301, 0x0301, true, .recorder⟩] }).mem 0x0301 = 0x6D :=
  by decide +kernel

/-- A read hook at 0x6000 that gives no value. -/
def silent (a : Word) (s : State) : State := { s with readHooks := [⟨a, a, false, .const none⟩] }

theorem test_BUS8 : noValue (readByte 0x6000 (silent 0x6000 start)) 0x6000 = true := by decide +kernel

/-! ### Reset and runBatch (section 6) -/

/-- The state a reset leaves. -/
def resetTo (r : Except Fault State) : Option Regs :=
  match r with
  | .ok t => regs (.next t)
  | .error _ => none

theorem test_RS1 : resetTo (warmReset (placed [] [(0xFFFC, 0x00), (0xFFFD, 0xFF)]
      { start with a := 0x12, sp := 0x42, p := flags [.d], totalCycles := 9 })) =
    some ⟨0x12, 0x00, 0x00, 0xFF, 0xFF00, flags [.d, .i], 9⟩ := by decide +kernel

/-- RS3 with ROM_BASE = 0x0300. -/
def rs3 : State := placed [] [(0xFFFC, 0x34), (0xFFFD, 0x12), (0x0200, 0x55), (0x02FF, 0x66), (0x0300, 0x77)]
  { start with
    cfg := { Config.default with romBase := 0x0300 }
    a := 0x12, x := 0x12, y := 0x12, sp := 0x10, p := flags [.n, .v, .d, .z, .c] }

/-- Bytes of the memory a reset leaves. -/
def bytesOf (r : Except Fault State) (as : List Word) : List Byte :=
  match r with
  | .ok t => as.map (Mem.read t.mem)
  | .error _ => []

theorem test_RS3 : resetTo (coldReset rs3) = some ⟨0x00, 0x00, 0x00, 0xFF, 0x1234, flags [.i], 0⟩ ∧
    bytesOf (coldReset rs3) [0x0200, 0x02FF, 0x0300, 0x0001] = [0x00, 0x00, 0x77, 0x00] := by decide +kernel

theorem test_RS4 : resetTo (warmReset { start with readHooks :=
      [⟨0xFFFC, 0xFFFC, false, .const (some 0x00)⟩, ⟨0xFFFD, 0xFFFD, false, .const (some 0x80)⟩] }) =
    some ⟨0x00, 0x00, 0x00, 0xFF, 0x8000, flags [.i], 0⟩ := by decide +kernel

/-- The program of section 6.2. -/
def looped (s : State) : State := placed [0xA2, 0x03, 0xCA, 0xD0, 0xFD, 0x02] [] s

/-- Why a batch stops, with PC, X and the cycle count. -/
def stopped (r : BatchResult) : Option (StopReason × Word × Byte × Nat) :=
  match r with
  | .stopped why t => some (why, t.pc, t.x, t.totalCycles)
  | .fault _ => none
  | .refused _ => none

theorem test_BT1_BT7 : stopped (runBatch 0 (looped start)) = some (.budgetExhausted, 0x0302, 0x03, 2) ∧
    stopped (runBatch 0 (looped { start with breakpoints := [0x0302] })) = some (.breakpoint 0x0302, 0x0302, 0x03, 2) := by
  decide +kernel

theorem test_BT4 : stopped (runBatch 5 (looped start)) = some (.budgetExhausted, 0x0302, 0x02, 7) := by decide +kernel

theorem test_BT8_BT9 :
    stopped (runBatch 100 (looped { start with cancelRequested := true })) = some (.cancelled, 0x0300, 0x00, 0) ∧
    stopped (runBatch 100 (placed [0x02] [] start)) = some (.invalidOpcode 0x0300, 0x0300, 0x00, 0) := by decide +kernel

/-! ### The codec (section 7) -/

theorem test_CD1 : [0x00, 0x11, 0x22, 0xA5, 0xFE, 0xFF].map fourAndFourEncode =
    [(0xAA, 0xAA), (0xAA, 0xBB), (0xBB, 0xAA), (0xFA, 0xAF), (0xFF, 0xFE), (0xFF, 0xFF)] := by decide +kernel

theorem test_CD2 : fourAndFourDecode 0xFF 0xFE = 0xFE ∧ fourAndFourDecode 0xAA 0xBB = 0x11 := by decide +kernel

theorem test_CD5 : encodeSector (List.replicate 256 0xFF) =
    0xFF :: List.replicate 83 0x96 ++ [0xED, 0x96, 0xED] ++ List.replicate 255 0x96 ++ [0xFF] := by decide +kernel

theorem test_CD7 : encodeSector (0x01 :: List.replicate 255 0x00) = [0x9A, 0x9A] ++ List.replicate 341 0x96 := by
  decide +kernel

/-- Why a field does not decode. -/
def refusal (r : Except CodecError (List Byte)) : Option CodecError :=
  match r with
  | .ok _ => none
  | .error e => some e

theorem test_CD9_CD10 : refusal (decodeSector ((List.replicate 343 0x96).set 10 0xD5)) = some (.badNibble 10) ∧
    refusal (decodeSector ((List.replicate 343 0x96).set 342 0x97)) = some .badChecksum := by decide +kernel

theorem test_CD11_CD12_CD13 :
    addressField 254 0 0 = [0xD5, 0xAA, 0x96, 0xFF, 0xFE, 0xAA, 0xAA, 0xAA, 0xAA, 0xFF, 0xFE, 0xDE, 0xAA, 0xEB] ∧
    addressField 254 17 5 = [0xD5, 0xAA, 0x96, 0xFF, 0xFE, 0xAA, 0xBB, 0xAA, 0xAF, 0xFF, 0xEA, 0xDE, 0xAA, 0xEB] ∧
    addressField 254 34 15 = [0xD5, 0xAA, 0x96, 0xFF, 0xFE, 0xBB, 0xAA, 0xAF, 0xAF, 0xEB, 0xFB, 0xDE, 0xAA, 0xEB] := by
  decide +kernel

theorem test_CD14 : sectorFieldLen Config.default = 429 ∧ trackLen Config.default = 6864 := by decide +kernel

/-- R473: the inverse tables. -/
theorem test_interleave : ∀ o ∈ [Interleave.dos33, .prodos], ∀ p, p < 16 →
    o.inverse.getD (o.table.getD p 99) 99 = p := by decide +kernel

/-! ### The controller (section 8) -/

/-- The slot-6 controller's hooks, with a drive. -/
def withDrive (d : Drive) : State :=
  { start with
    readHooks := State.reset.readHooks, writeHooks := State.reset.writeHooks
    dev := { State.reset.dev with drive := d } }

/-- A read of each address in turn: the bytes and the drive. -/
def touch : List Word → State → List Byte × Drive
  | [], s => ([], s.dev.drive)
  | a :: as, s =>
    match readByte a s with
    | .ok (v, t) => (v :: (touch as t).1, (touch as t).2)
    | .error _ => ([], s.dev.drive)

/-- The head after each of the accesses. -/
def heads (as : List Word) (d : Drive) : List Nat :=
  (List.range as.length).map (fun k => (touch (as.take (k + 1)) (withDrive d)).2.headPos)

theorem test_DK1_DK2 : heads [0xC0E3, 0xC0E7, 0xC0E2, 0xC0E6] Drive.initial = [1, 1, 1, 1] ∧
    heads [0xC0E7, 0xC0E6, 0xC0E1, 0xC0E0] Drive.initial = [0, 0, 0, 0] := by decide +kernel

theorem test_DK3 : heads [0xC0E3, 0xC0E0, 0xC0E5, 0xC0E2, 0xC0E7, 0xC0E4, 0xC0E1, 0xC0E6] Drive.initial =
    [1, 1, 2, 2, 3, 3, 4, 4] := by decide +kernel

theorem test_DK6 : heads [0xC0E3] { Drive.initial with headPos := 68 } = [68] ∧
    currentTrack Config.default { Drive.initial with headPos := 68 } = 34 := by decide +kernel

/-- A drive over one short track, which stands for track 0. -/
def short (wp : Bool) : Drive :=
  { Drive.initial with disk := some ⟨[[0xFF, 0xFE, 0xFD, 0xFC, 0xFB]], wp, .dos33⟩ }

theorem test_DK7 : (let r := touch [0xC0EC, 0xC0EC, 0xC0E9, 0xC0EC, 0xC0EC] (withDrive (short false))
    r.1 = [0xFF, 0xFF, 0xFF, 0xFE, 0xFD] ∧ r.2.mediaPosition = 3) := by decide +kernel

theorem test_DK9_DK10 : (let r := touch [0xC0E9, 0xC0ED, 0xC0EE] (withDrive (short true))
      r.1 = [0xFF, 0x80, 0x80] ∧ r.2.q6 = true ∧ r.2.q7 = false) ∧
    (touch [0xC0ED, 0xC0EE] (withDrive (short false))).1 = [0x00, 0x00] := by decide +kernel

/-- The written part of DK11: the latch, loaded through C0EF, lands at position 1. -/
theorem test_DK11 : (let s := writeByte 0xC0EF 0xD5 (withDrive { short false with motorOn := true, q6 := true, mediaPosition := 1 })
    let r := touch [0xC0EC] s
    s.dev.drive.writeLatch = 0xD5 ∧ r.1 = [0x00] ∧ r.2.mediaPosition = 2 ∧
    r.2.disk = some ⟨[[0xFF, 0xD5, 0xFD, 0xFC, 0xFB]], false, .dos33⟩) := by decide +kernel

theorem test_DK12 : (let s := writeByte 0xC0EF 0x00 (withDrive { short true with motorOn := true, q6 := true, mediaPosition := 1 })
    let r := touch [0xC0EC] s
    r.2.mediaPosition = 2 ∧ r.2.disk = (short true).disk) := by decide +kernel

theorem test_DK13 : (let r := touch [0xC0E9, 0xC0EC, 0xC0E3] (withDrive Drive.initial)
    let s := writeByte 0xC0ED 0x34 (writeByte 0xC0EF 0x12 (withDrive r.2))
    r.1 = [0x00, 0x00, 0x00] ∧
    s.dev.drive = { Drive.initial with
      motorOn := true, headPos := 1, phases := #v[false, true, false, false], q6 := true, q7 := true }) := by
  decide +kernel

theorem test_DK14 : after (step (placed [0xBD, 0x8C, 0xC0] []
      { withDrive { short false with motorOn := true, mediaPosition := 2 } with x := 0x60 }))
    (fun t => t.a == 0xFD && t.dev.drive.mediaPosition == 3) = true := by decide +kernel

/-! ### Witnesses: the state and operands that meet a statement's hypotheses -/

theorem read_of_byteOf {a : Word} {s : State} {v : Byte} (h : byteOf (readByte a s) = some v) :
    ∃ u, readByte a s = .ok (v, u) := by
  cases hr : readByte a s with
  | ok r => rw [hr] at h; cases h; exact ⟨r.2, rfl⟩
  | error e => rw [hr] at h; cases h

/-- The index registers and SP at the ends of their range, PC at the top of memory. -/
def edge : State := { start with x := 0x01, y := 0x02, sp := 0xFF, pc := 0xFFFF }

theorem witness_EncodeInvertsDecode : decode [0xA9, 0x41, 0x10] = .instr (.ldaImm 0x41) [0x10] ∧
    decode [0x6C, 0xFF, 0xFF] = .instr (.jmpInd 0xFFFF) [] := by decide +kernel

theorem witness_AbsentOpcodesAreInvalid :
    ∀ op ∈ [(0x02 : Byte), 0xFF], irqPending edge = false ∧ op ∈ absentOpcodes ∧
      ∃ u, readByte 0xFFFF (placed [op] [] edge) = .ok (op, u) := by
  intro op h
  simp only [List.mem_cons, List.not_mem_nil, or_false] at h
  rcases h with rfl | rfl
  · exact ⟨by decide +kernel, by decide +kernel, read_of_byteOf (by decide +kernel)⟩
  · exact ⟨by decide +kernel, by decide +kernel, read_of_byteOf (by decide +kernel)⟩

/-- JMP $1234 at the top of memory, its operand at 0x0000 and 0x0001. -/
def topJump : State := placed [0x4C, 0x34, 0x12] [] edge

theorem plain_gives {a : Word} {s : State} {v : Byte} (h : s.plainRead a = true) (hv : Mem.read s.mem a = v) :
    readByte a s = .ok (v, s) := hv ▸ readByte_plain h

/-- An opcode byte from a read hook; words of one, two and three bytes; a fetch that wraps from 0xFFFF to 0x0000. -/
theorem witness_StepRunsDecodedInstruction :
    (irqPending topJump = false ∧ ∃ r, fetch topJump = .ok r) ∧
    (∃ u, readByte edge.pc { edge with readHooks := [⟨0xFFFF, 0xFFFF, false, .const (some 0x4C)⟩] } = .ok (0x4C, u)) ∧
    (0x02 ∈ absentOpcodes ∧ decode [0xEA] = .instr .nop [] ∧ decode [0xA9, 0x41] = .instr (.ldaImm 0x41) []) ∧
    (readByte topJump.pc topJump = .ok (0x4C, topJump) ∧ readByte (topJump.pc + 1) topJump = .ok (0x34, topJump) ∧
      readByte (topJump.pc + 2) topJump = .ok (0x12, topJump) ∧ decode [0x4C, 0x34, 0x12] = .instr (.jmpAbs 0x1234) []) ∧
    decode [Mem.read topJump.mem topJump.pc, Mem.read topJump.mem (topJump.pc + 1),
      Mem.read topJump.mem (topJump.pc + 2)] = .instr (.jmpAbs 0x1234) [] ∧
    (∀ k, k < (encode (.jmpAbs 0x1234)).length → topJump.plainRead (topJump.pc + BitVec.ofNat 16 k) = true) :=
  ⟨⟨by decide +kernel, ok_of_gives (by decide +kernel)⟩, read_of_byteOf (by decide +kernel), by decide +kernel,
    ⟨plain_gives (by decide +kernel) (by decide +kernel), plain_gives (by decide +kernel) (by decide +kernel),
      plain_gives (by decide +kernel) (by decide +kernel), by decide +kernel⟩, by decide +kernel, by decide +kernel⟩

/-- The IRQ line high, I clear; whether there is an IRQ input is given. -/
def interrupted (input : Bool) : State :=
  { topJump with cfg := { Config.default with hasIrqInput := input }, irqLine := true }

theorem witness_IrqEntryTakesVector :
    ((interrupted false).cfg.hasIrqInput = false ∧ ∃ r, fetch (interrupted false) = .ok r) ∧
    (interrupted true).cfg.hasIrqInput = true ∧ (interrupted true).irqLine = true ∧ (interrupted true).p.i = false ∧
    (let s := interrupted true
     let s1 := push (s.p.serialize true &&& 0xEF) (push (loByte s.pc) (push (hiByte s.pc) s))
     ∃ r, read16 0xFFFE { s1 with p := { s1.p with i := true } } = .ok r) :=
  ⟨⟨rfl, ok_of_gives (by decide +kernel)⟩, rfl, rfl, by decide +kernel, ok_of_gives (by decide +kernel)⟩

/-- Every read faults. -/
def mute : State := { edge with readHooks := [⟨0x0000, 0xFFFF, false, .const none⟩] }

/-- The fetch: of the opcode, of the first and of the second operand byte of a JMP at 0xFFFF. The operand: each
pointer read, the wrap of the pointer from 0xFF to 0x00 among them, and the operand read itself. -/
theorem witness_BusFaultStopsInstruction :
    (irqPending mute = false ∧ readByte mute.pc mute = .error (.readHookNoValue 0xFFFF) ∧
      fetch mute = .error (.readHookNoValue 0xFFFF)) ∧
    (∃ s1, readByte 0xFFFF (silent 0x0000 topJump) = .ok (0x4C, s1) ∧ decode [0x4C] = .truncated ∧
      readByte 0x0000 s1 = .error (.readHookNoValue 0x0000)) ∧
    (∃ s1 s2, readByte 0xFFFF (silent 0x0001 topJump) = .ok (0x4C, s1) ∧ readByte 0x0000 s1 = .ok (0x34, s2) ∧
      decode [0x4C, 0x34] = .truncated ∧ readByte 0x0001 s2 = .error (.readHookNoValue 0x0001)) ∧
    readByte 0x00FF (silent 0x00FF edge) = .error (.readHookNoValue 0x00FF) ∧
    (∃ lo s1, readByte 0x00FF (silent 0x0000 edge) = .ok (lo, s1) ∧
      readByte 0x0000 s1 = .error (.readHookNoValue 0x0000)) ∧
    (∃ f ∈ ldaForms 0x40 0x2000, readOperand f.operand mute = .error (.readHookNoValue 0x0040)) ∧
    (∃ f ∈ staForms 0x40 0x2000, effAddr f.operand mute = .error (.readHookNoValue 0x0041)) ∧
    (∃ f ∈ incForms 0x40 0x2000, f.operand = .mem (.zp 0x40) ∧ ∃ ea crossed u,
      effAddr (.zp 0x40) mute = .ok ((ea, crossed), u) ∧ readByte ea u = .error (.readHookNoValue 0x0040)) :=
  ⟨⟨by decide +kernel, error_of_noValue (by decide +kernel), error_of_noValue (by decide +kernel)⟩,
    ⟨_, plain_gives (by decide +kernel) (by decide +kernel), by decide +kernel, error_of_noValue (by decide +kernel)⟩,
    ⟨_, _, plain_gives (by decide +kernel) (by decide +kernel), plain_gives (by decide +kernel) (by decide +kernel),
      by decide +kernel, error_of_noValue (by decide +kernel)⟩,
    error_of_noValue (by decide +kernel),
    ⟨_, _, readByte_plain (by decide +kernel), error_of_noValue (by decide +kernel)⟩,
    ⟨_, List.Mem.tail _ (List.Mem.head _), error_of_noValue (by decide +kernel)⟩,
    ⟨_, List.Mem.head _, error_of_noValue (by decide +kernel)⟩,
    ⟨_, List.Mem.head _, rfl, _, _, _, rfl, error_of_noValue (by decide +kernel)⟩⟩

/-- The stack: the first, second and third pull (SP wraps to 0x00), each silent. -/
theorem witness_BusFaultStopsInstruction_pulls :
    pull mute = .error (.readHookNoValue 0x0100) ∧
    (∃ lo s1, pull (silent 0x0101 edge) = .ok (lo, s1) ∧ pull s1 = .error (.readHookNoValue 0x0101)) ∧
    (∃ p s1, pull (silent 0x0101 edge) = .ok (p, s1) ∧
      pull { s1 with p := Flags.ofByte p } = .error (.readHookNoValue 0x0101)) ∧
    (∃ p s1 lo s2, pull (silent 0x0102 edge) = .ok (p, s1) ∧ pull { s1 with p := Flags.ofByte p } = .ok (lo, s2) ∧
      pull s2 = .error (.readHookNoValue 0x0102)) :=
  ⟨error_of_noValue (by decide +kernel),
    ⟨_, _, pull_plain (by decide +kernel), error_of_noValue (by decide +kernel)⟩,
    ⟨_, _, pull_plain (by decide +kernel), error_of_noValue (by decide +kernel)⟩,
    ⟨_, _, _, _, pull_plain (by decide +kernel), pull_plain (by decide +kernel), error_of_noValue (by decide +kernel)⟩⟩

/-- An indirect jump: its first pointer byte, and its second with and without the wrap, each silent. -/
theorem witness_BusFaultStopsInstruction_jmpInd :
    readByte 0x12FF mute = .error (.readHookNoValue 0x12FF) ∧
    ∀ wrap : Bool,
    (let s := silent (if wrap then 0x1200 else 0x1300) { edge with cfg := { Config.default with jmpIndWrap := wrap } }
     ∃ lo s1, readByte 0x12FF s = .ok (lo, s1) ∧ ∃ a, readByte (if s.cfg.jmpIndWrap then
        ((0x12FF : Word) &&& 0xFF00) ||| (((0x12FF : Word) + 1) &&& 0x00FF) else (0x12FF : Word) + 1) s1 =
          .error (.readHookNoValue a)) := by
  refine ⟨error_of_noValue (by decide +kernel), fun wrap => ?_⟩
  cases wrap
  · exact ⟨_, _, readByte_plain (by decide +kernel), 0x1300, error_of_noValue (by decide +kernel)⟩
  · exact ⟨_, _, readByte_plain (by decide +kernel), 0x1200, error_of_noValue (by decide +kernel)⟩

/-- The vector of BRK and of an IRQ entry: its first byte and its second, each silent. -/
theorem witness_BusFaultStopsInstruction_vectors :
    (let brk := fun s : State =>
       { push (s.p.serialize true) (push (loByte (s.pc + 2)) (push (hiByte (s.pc + 2)) s)) with
         p := { s.p with b := true, i := true } }
     readByte 0xFFFE (brk (silent 0xFFFE edge)) = .error (.readHookNoValue 0xFFFE) ∧
     ∃ lo s3, readByte 0xFFFE (brk (silent 0xFFFF edge)) = .ok (lo, s3) ∧
       readByte 0xFFFF s3 = .error (.readHookNoValue 0xFFFF)) ∧
    (let irq := fun s : State =>
       { push (s.p.serialize true &&& 0xEF) (push (loByte s.pc) (push (hiByte s.pc) s)) with
         p := { s.p with i := true } }
     (interrupted true).cfg.hasIrqInput = true ∧ (interrupted true).irqLine = true ∧ (interrupted true).p.i = false ∧
     readByte 0xFFFE (irq (silent 0xFFFE (interrupted true))) = .error (.readHookNoValue 0xFFFE) ∧
     ∃ lo s3, readByte 0xFFFE (irq (silent 0xFFFF (interrupted true))) = .ok (lo, s3) ∧
       readByte 0xFFFF s3 = .error (.readHookNoValue 0xFFFF)) :=
  ⟨⟨error_of_noValue (by decide +kernel), _, _, readByte_plain (by decide +kernel), error_of_noValue (by decide +kernel)⟩,
    rfl, rfl, by decide +kernel, error_of_noValue (by decide +kernel), _, _, readByte_plain (by decide +kernel),
    error_of_noValue (by decide +kernel)⟩

theorem witness_ReadHooksDecideInOrder :
    ((bus1 true).readHooks = [⟨0x2000, 0x20FF, true, .const (some 0x5A)⟩] ++ ⟨0x2000, 0x2000, false, .const (some 0x11)⟩ :: [] ∧
      OnlyObserve [⟨0x2000, 0x20FF, true, .const (some 0x5A)⟩] 0x2000 ∧
      Hook.covers ⟨0x2000, 0x2000, false, .const (some 0x11)⟩ 0x2000 = true) ∧
    OnlyObserve (bus1 true).readHooks 0x20FF ∧ OnlyObserve bus4.readHooks 0x4000 :=
  ⟨⟨rfl, by unfold OnlyObserve; decide +kernel, by decide +kernel⟩, by unfold OnlyObserve; decide +kernel,
    by unfold OnlyObserve; decide +kernel⟩

/-- A write hook that observes, then one that consumes. -/
def guarded : State :=
  { start with writeHooks := [⟨0x2000, 0x20FF, true, .recorder⟩, ⟨0x2000, 0x2000, false, .recorder⟩] }

theorem witness_WriteHooksDecideInOrder :
    (guarded.writeHooks = [⟨0x2000, 0x20FF, true, .recorder⟩] ++ ⟨0x2000, 0x2000, false, .recorder⟩ :: [] ∧
      OnlyObserve [⟨0x2000, 0x20FF, true, .recorder⟩] 0x2000 ∧
      Hook.covers ⟨0x2000, 0x2000, false, .recorder⟩ 0x2000 = true) ∧
    OnlyObserve guarded.writeHooks 0x20FF ∧ OnlyObserve guarded.writeHooks 0x2100 :=
  ⟨⟨rfl, by unfold OnlyObserve; decide +kernel, by decide +kernel⟩, by unfold OnlyObserve; decide +kernel,
    by unfold OnlyObserve; decide +kernel⟩

theorem witness_ReadAfterWriteIsCoherent : Mem.wf State.reset.mem = true ∧
    [(0x0000 : Word), 0xC0DF, 0xC0F0, 0xFFFF].all (fun a => State.reset.plainRead a && State.reset.plainWrite a) = true := by
  decide +kernel

/-- Whether a form's operand can be read. -/
def readable (s : State) (f : ReadForm) : Bool := gives (readOperand f.operand s)

/-- Whether a form's address can be found. -/
def writable (s : State) (f : WriteForm) : Bool := gives (effAddr f.operand s)

/-- Whether the byte a form modifies can be read. -/
def modifiable (s : State) (f : RmwForm) : Bool :=
  match f.operand with
  | .acc => true
  | .mem m =>
    match effAddr m s with
    | .ok ((ea, _), u) => gives (readByte ea u)
    | .error _ => false

/-- The pointers of the indirect modes lie at 0xFF and 0x00. -/
theorem witness_AddressingModesResolve :
    (∃ lo s1, readByte 0x00FF edge = .ok (lo, s1) ∧ ∃ hi s2, readByte 0x0000 s1 = .ok (hi, s2)) ∧
    (∃ r, effAddr (.izy 0xFF) edge = .ok r) ∧
    (∃ ea crossed s1, effAddr (.izx 0xFE) edge = .ok ((ea, crossed), s1) ∧ ∃ r, readByte ea s1 = .ok r) :=
  ⟨⟨_, _, readByte_plain (by decide +kernel), _, _, readByte_plain (by decide +kernel)⟩,
    ok_of_gives (by decide +kernel), ⟨_, _, _, rfl, ok_of_gives (by decide +kernel)⟩⟩

/-- The pulls wrap: SP is 0xFF. -/
theorem witness_StackOperations : ∃ lo s1 hi s2, pull edge = .ok (lo, s1) ∧ pull s1 = .ok (hi, s2) :=
  ⟨_, _, _, _, pull_plain (by decide +kernel), pull_plain (by decide +kernel)⟩

theorem witness_LoadsSetRegister :
    (ldaForms 0xFF 0xFFFF ++ ldxForms 0xFF 0xFFFF ++ ldyForms 0xFF 0xFFFF).all (readable edge) = true := by
  decide +kernel

theorem witness_StoresWriteRegister :
    (staForms 0xFF 0xFFFF ++ stxForms 0xFF 0xFFFF ++ styForms 0xFF 0xFFFF).all (writable edge) = true := by
  decide +kernel

theorem witness_PullInstructionsLoad : (∃ v u, pull edge = .ok (v, u)) ∧ ∃ v u, pull { edge with sp := 0x00 } = .ok (v, u) :=
  ⟨⟨_, _, pull_plain (by decide +kernel)⟩, _, _, pull_plain (by decide +kernel)⟩

/-- Decimal mode with `DECIMAL_NVZ = Draw`. -/
def drawing : State := { edge with cfg := { Config.default with decimalNvz := .draw }, p := flags [.d] }

/-- Binary mode, decimal mode with `DECIMAL_NVZ = Exact`, and decimal mode with `Draw`. -/
theorem witness_AdcAdds : (adcForms 0xFF 0xFFFF).all (readable edge) = true ∧ edge.p.d = false ∧
    (adcForms 0xFF 0xFFFF).all (readable { edge with p := flags [.d] }) = true ∧ edge.cfg.decimalNvz = .exact ∧
    (adcForms 0xFF 0xFFFF).all (readable drawing) = true ∧ drawing.p.d = true ∧ drawing.cfg.decimalNvz = .draw := by
  decide +kernel

theorem witness_SbcSubtracts : (sbcForms 0xFF 0xFFFF).all (readable edge) = true ∧ edge.p.d = false ∧
    (sbcForms 0xFF 0xFFFF).all (readable { edge with p := flags [.d] }) = true ∧ edge.cfg.decimalNvz = .exact ∧
    (sbcForms 0xFF 0xFFFF).all (readable drawing) = true ∧ drawing.p.d = true ∧ drawing.cfg.decimalNvz = .draw := by
  decide +kernel

theorem witness_LogicCombinesIntoA :
    (andForms 0xFF 0xFFFF ++ oraForms 0xFF 0xFFFF ++ eorForms 0xFF 0xFFFF).all (readable edge) = true := by
  decide +kernel

theorem witness_BitTestsMemory : (bitForms 0xFF 0xFFFF).all (readable edge) = true := by decide +kernel

theorem witness_ComparesSetFlags :
    (cmpForms 0xFF 0xFFFF ++ cpxForms 0xFF 0xFFFF ++ cpyForms 0xFF 0xFFFF).all (readable edge) = true := by
  decide +kernel

theorem witness_IncDecChangeMemory : (incForms 0xFF 0xFFFF ++ decForms 0xFF 0xFFFF).all (modifiable edge) = true := by
  decide +kernel

theorem witness_ShiftsMoveBits : (aslForms 0xFF 0xFFFF ++ lsrForms 0xFF 0xFFFF).all (modifiable edge) = true := by
  decide +kernel

theorem witness_RotatesMoveBits : (rolForms 0xFF 0xFFFF ++ rorForms 0xFF 0xFFFF).all (modifiable edge) = true := by
  decide +kernel

/-- The pointer at the end of a page, with and without the wrap. -/
theorem witness_JmpSetsPc : ∀ wrap : Bool,
    (let s := { edge with cfg := { Config.default with jmpIndWrap := wrap } }
     ∃ lo s1 hi s2, readByte 0x12FF s = .ok (lo, s1) ∧ readByte (if s.cfg.jmpIndWrap then
       ((0x12FF : Word) &&& 0xFF00) ||| (((0x12FF : Word) + 1) &&& 0x00FF) else (0x12FF : Word) + 1) s1 = .ok (hi, s2)) := by
  intro wrap
  cases wrap
  · exact ⟨_, _, _, _, readByte_plain (by decide +kernel), readByte_plain (by decide +kernel)⟩
  · exact ⟨_, _, _, _, readByte_plain (by decide +kernel), readByte_plain (by decide +kernel)⟩

theorem witness_RtsPullsReturn : ∃ lo s1 hi s2, pull edge = .ok (lo, s1) ∧ pull s1 = .ok (hi, s2) :=
  ⟨_, _, _, _, pull_plain (by decide +kernel), pull_plain (by decide +kernel)⟩

theorem witness_RtiRestoresStatusAndPc : ∃ p s1 lo s2 hi s3, pull edge = .ok (p, s1) ∧
    pull { s1 with p := Flags.ofByte p } = .ok (lo, s2) ∧ pull s2 = .ok (hi, s3) :=
  ⟨_, _, _, _, _, _, pull_plain (by decide +kernel), pull_plain (by decide +kernel), pull_plain (by decide +kernel)⟩

theorem witness_BrkTakesTrap : ∃ lo u1 hi u,
    (let s1 := push (edge.p.serialize true) (push (loByte (edge.pc + 2)) (push (hiByte (edge.pc + 2)) edge))
     readByte 0xFFFE { s1 with p := { edge.p with b := true, i := true } } = .ok (lo, u1)) ∧
    readByte 0xFFFF u1 = .ok (hi, u) :=
  ⟨_, _, _, _, readByte_plain (by decide +kernel), readByte_plain (by decide +kernel)⟩

/-- SP = 0x00: the second stack byte is at 0x01FF. -/
theorem witness_RtsReturnsPastJsr :
    (let s := { State.reset with sp := 0x00 }
     Mem.wf s.mem = true ∧
     ∀ a, a = stackAddr s.sp ∨ a = stackAddr (s.sp - 1) → s.plainRead a = true ∧ s.plainWrite a = true) := by
  refine ⟨by decide, ?_⟩
  rintro a (rfl | rfl) <;> decide +kernel

theorem witness_RtiReturnsPastBrk :
    (let s := { State.reset with sp := 0x01 }
     Mem.wf s.mem = true ∧
     (∀ a, a = stackAddr s.sp ∨ a = stackAddr (s.sp - 1) ∨ a = stackAddr (s.sp - 2) →
       s.plainRead a = true ∧ s.plainWrite a = true) ∧
     s.plainRead 0xFFFE = true ∧ s.plainRead 0xFFFF = true) := by
  refine ⟨by decide, ?_, by decide +kernel, by decide +kernel⟩
  rintro a (rfl | rfl | rfl) <;> decide +kernel

/-- STA writes no flag; LDA writes N and Z and no other. -/
theorem witness_UnlistedFlagsUnchanged :
    (∀ f ∈ [FlagName.n, .v, .b, .d, .i, .z, .c], Mnemonic.sta ∉ flagWriters f) ∧
    (∀ f ∈ [FlagName.v, .b, .d, .i, .c], Mnemonic.lda ∉ flagWriters f) ∧
    (∃ d, (Instr.staZp 0x40).descriptor = some d ∧ d.mnemonic = .sta ∧ ∃ t, exec (.staZp 0x40) edge = .next t) ∧
    (∃ d, (Instr.ldaImm 0x80).descriptor = some d ∧ d.mnemonic = .lda ∧ ∃ t, exec (.ldaImm 0x80) edge = .next t) :=
  ⟨by decide +kernel, by decide +kernel, ⟨_, rfl, rfl, _, rfl⟩, ⟨_, rfl, rfl, _, rfl⟩⟩

/-- STA writes no register; PHA writes SP alone. -/
theorem witness_UnwrittenRegistersUnchanged :
    (∃ d, (Instr.staZp 0x40).descriptor = some d ∧ writesA d = false ∧ writesX d = false ∧ writesY d = false ∧
      writesSp d = false ∧ ∃ t, exec (.staZp 0x40) edge = .next t) ∧
    (∃ d, Instr.pha.descriptor = some d ∧ writesA d = false ∧ writesX d = false ∧ writesY d = false ∧
      ∃ t, exec .pha edge = .next t) :=
  ⟨⟨_, rfl, by decide, by decide, by decide, by decide, _, rfl⟩, ⟨_, rfl, by decide, by decide, by decide, _, rfl⟩⟩

/-- A load, and a shift of A. -/
theorem witness_NonStoringLeavesMemory :
    (∃ d, (Instr.ldaAbs 0xFFFF).descriptor = some d ∧ writesMem d = false ∧
      after (exec (.ldaAbs 0xFFFF) edge) (fun _ => true) = true) ∧
    (∃ d, Instr.aslAcc.descriptor = some d ∧ writesMem d = false ∧ ∃ t, exec .aslAcc edge = .next t) :=
  ⟨⟨_, rfl, by decide, by decide +kernel⟩, ⟨_, rfl, by decide, _, rfl⟩⟩

theorem witness_StoresTouchOneByte :
    (staForms 0xFF 0xFFFF ++ stxForms 0xFF 0xFFFF ++ styForms 0xFF 0xFFFF).all
      (fun f => writable edge f && after (exec f.instr edge) (fun _ => true)) = true ∧
    (incForms 0xFF 0xFFFF ++ decForms 0xFF 0xFFFF ++ aslForms 0xFF 0xFFFF ++ lsrForms 0xFF 0xFFFF ++
      rolForms 0xFF 0xFFFF ++ rorForms 0xFF 0xFFFF).all
      (fun f => modifiable edge f && after (exec f.instr edge) (fun _ => true)) = true := by decide +kernel

/-- SP = 0x00: the later stack slots are at the top of the stack page. -/
theorem witness_PushesTouchStackSlots :
    (let s := { edge with sp := 0x00 }
     [Instr.pha, .php, .jsr 0x1234, .brk].all (fun i => after (exec i s) (fun _ => true)) = true ∧
     (0x0101 : Word) ≠ stackAddr s.sp ∧ (0x0101 : Word) ≠ stackAddr (s.sp - 1) ∧ (0x0101 : Word) ≠ stackAddr (s.sp - 2)) := by
  decide +kernel

theorem witness_UnhookedLeavesDevices : edge.readHooks = [] ∧ edge.writeHooks = [] ∧
    ∃ t, exec (.ldaImm 0x80) edge = .next t :=
  ⟨rfl, rfl, _, rfl⟩

theorem witness_StepKeepsSetup : after (step topJump) (fun t => t.pc == 0x1234) = true ∧
    after (step (interrupted true)) (fun t => t.irqLine) = true := by decide +kernel

/-- Both ends: a NOP costs 2, a BRK 7, an IRQ entry 7. -/
theorem witness_StepCostsTwoToSeven : after (step (placed [0xEA] [] start)) (fun t => t.totalCycles == 2) = true ∧
    after (step (placed [0x00] [] start)) (fun t => t.totalCycles == 7) = true ∧
    after (step (interrupted true)) (fun t => t.totalCycles == 7) = true := by decide +kernel

/-- A drive whose disk fits: 35 tracks of one byte value. -/
def loaded (cfg : Config) (wp : Bool) (pos : Nat) : Drive :=
  { Drive.initial with
    mediaPosition := pos
    disk := some ⟨List.replicate 35 (List.replicate (trackLen cfg) 0xFF), wp, .dos33⟩ }

theorem loaded_wf (cfg : Config) (wp : Bool) {pos : Nat} (h : pos < trackLen cfg) : (loaded cfg wp pos).wf cfg = true := by
  rw [Drive.wf_iff]
  refine ⟨Nat.zero_le _, h, ?_⟩
  intro img hi
  cases hi
  rw [DiskImage.wf_iff]
  simp

/-- The machine after reset with a disk in the drive and the motor on. -/
def spinning : State :=
  { State.reset with dev := { State.reset.dev with drive := { loaded Config.default false 6863 with motorOn := true } } }

theorem spinning_wf : spinning.wf = true := by
  have h := loaded_wf Config.default false (pos := 6863) (by decide)
  have hd : spinning.dev.drive.wf spinning.cfg = true := by
    rw [Drive.wf_iff] at h ⊢
    exact h
  unfold State.wf
  rw [hd]
  decide +kernel

/-- From the state after reset, whose first instruction is CPY $CCCC, and with a disk in. -/
theorem witness_StepKeepsGoodState : State.reset.wf = true ∧ after (step State.reset) (fun t => t.totalCycles == 4) = true ∧
    spinning.wf = true ∧ after (step spinning) (fun t => t.pc == 0xCCCF) = true :=
  ⟨by decide +kernel, by decide +kernel, spinning_wf, by decide +kernel⟩

/-- A file that ends at the last address, one that passes it, a short one. -/
theorem witness_LoadBinaryPlacesBytes : Mem.wf State.reset.mem = true ∧ (1 ≤ [(0x60 : Byte)].length ∧ 0xFFFF + 1 ≤ 65536) ∧
    (1 ≤ [(0x60 : Byte)].length ∧ 0x10000 + 1 > 65536) ∧ [(0x60 : Byte)].length < 2 := by decide

theorem witness_WarmResetReadsVector : ∃ lo s1 hi s2,
    readByte 0xFFFC { edge with sp := 0xFF, p := { edge.p with i := true } } = .ok (lo, s1) ∧
    readByte 0xFFFD s1 = .ok (hi, s2) :=
  ⟨_, _, _, _, readByte_plain (by decide +kernel), readByte_plain (by decide +kernel)⟩

/-- ROM_BASE at both ends of its range. -/
theorem witness_ColdResetClearsRam : ∀ base ∈ [0, 0xD000, 0x10000],
    (let s := { topJump with cfg := { Config.default with romBase := base } }
     Mem.wf s.mem = true ∧ s.cfg.romBase ≤ 0x10000) := by decide +kernel

theorem fault_of_faultOf {o : Host.Outcome State Fault Refusal} {e : Fault} (h : faultOf o = some e) : o = .fault e := by
  cases o with
  | next t => cases h
  | fault f => exact congrArg _ (Option.some.inj h)
  | refused r => cases h

theorem witness_BatchTestsInOrder :
    (looped { start with cancelRequested := true }).cancelRequested = true ∧
    (∃ pc u, (placed [0x02] [] start).cancelRequested = false ∧ step (placed [0x02] [] start) = .fault (.invalidOpcode pc u)) ∧
    (∃ t, step (looped { start with breakpoints := [0x0302] }) = .next t ∧ t.pc ∈ t.breakpoints) ∧
    (∃ t, step (looped start) = .next t ∧ t.pc ∉ t.breakpoints) := by
  refine ⟨by decide +kernel, ?_, ?_, ?_⟩
  · have h : faultOf (step (placed [0x02] [] start)) = some (.invalidOpcode 0x0300 (placed [0x02] [] start)) := by
      decide +kernel
    exact ⟨_, _, by decide +kernel, fault_of_faultOf h⟩
  · obtain ⟨t, ht, hb⟩ := next_of_after (o := step (looped { start with breakpoints := [0x0302] }))
      (f := fun t => decide (t.pc ∈ t.breakpoints)) (by decide +kernel)
    exact ⟨t, ht, of_decide_eq_true hb⟩
  · obtain ⟨t, ht, hb⟩ := next_of_after (o := step (looped start))
      (f := fun t => decide (t.pc ∉ t.breakpoints)) (by decide +kernel)
    exact ⟨t, ht, of_decide_eq_true hb⟩

/-- Both ends: budget 1 spent 2, and budget 0 spent 7. -/
theorem witness_BatchOvershootsBySeven :
    stopped (runBatch 1 (placed [0xEA] [] start)) = some (.budgetExhausted, 0x0301, 0x00, 2) ∧
    stopped (runBatch 0 (placed [0x00] [] start)) = some (.budgetExhausted, 0xCCCC, 0x00, 7) := by decide +kernel

/-- The machine in a slot. -/
def inSlot (n : Nat) : State :=
  construct { Config.default with diskSlot := n } [] [] [] ⟨0x00, 0x00, 0x00, 0xFF, 0x0300, flags []⟩

/-- Slots 1, 6 and 7, strobes 0 and 15, the ROM window's first and last bytes. -/
theorem witness_StrobeWindowReachesController : State.reset.hasDisk ∧ ∀ n ∈ [1, 6, 7],
    (inSlot n).hasDisk ∧ (inSlot n).cfg.slotOk = true ∧ (0 < 16 ∧ 15 < 16) ∧ (0 < 256 ∧ 255 < 256) := by
  refine ⟨⟨⟨[], rfl⟩, ⟨[], rfl⟩⟩, fun n h => ⟨⟨⟨[], rfl⟩, ⟨[], rfl⟩⟩, ?_⟩⟩
  simp only [List.mem_cons, List.not_mem_nil, or_false] at h
  rcases h with rfl | rfl | rfl <;> decide

theorem witness_SoftSwitchesSetOneLatch : Drive.initial.disk = none ∧
    (0xC0E0 : Word).toNat % 16 = 0 ∧ (0xC0E7 : Word).toNat % 16 = 7 ∧ (0xC0E8 : Word).toNat % 16 = 8 ∧
    (0xC0EF : Word).toNat % 16 = 15 := by decide

/-- The head at 0 and at HMAX in both stepper models: each kind of phase change. -/
theorem witness_StepperMovesOneStep :
    (∀ m ∈ [StepperModel.halfTrack, .wholeTrackPerPhase], ∀ edgeOf ∈ [fun _ => 0, headMax],
      (let cfg := { Config.default with stepper := m }
       let d := { Drive.initial with headPos := edgeOf cfg }
       d.headPos ≤ headMax cfg ∧ d.phases = Vector.replicate 4 false ∧
       (∃ q : Fin 4, q.val = (d.headPos % 4 + 1) % 4) ∧ (∃ q : Fin 4, q.val = (d.headPos % 4 + 3) % 4) ∧
       (∃ q : Fin 4, q.val = d.headPos % 4))) ∧
    headMax { Config.default with stepper := .halfTrack } = 68 ∧
    headMax { Config.default with stepper := .wholeTrackPerPhase } = 34 := by
  refine ⟨?_, rfl, rfl⟩
  intro m hm e he
  simp only [List.mem_cons, List.not_mem_nil, or_false] at hm he
  rcases hm with rfl | rfl <;> rcases he with rfl | rfl <;> decide +kernel

/-- The last position of the track; each mode of Q6 and Q7, for a read and for a write. -/
theorem witness_DataStrobesFollowMode :
    (loaded Config.default true 6863).wf Config.default = true ∧
    (∃ img, (loaded Config.default true 6863).disk = some img) ∧
    (∀ q6 ∈ [false, true], ∀ q7 ∈ [false, true], ∃ d a,
      (d = { loaded Config.default true 6863 with q7 := q7 } ∧ (applySwitch Config.default (BitVec.toNat (w := 16) a % 16) d).q6 = q6 ∧
        (applySwitch Config.default (BitVec.toNat (w := 16) a % 16) d).q7 = q7)) := by
  refine ⟨loaded_wf _ _ (by decide), ⟨_, rfl⟩, ?_⟩
  intro q6 h6 q7 h7
  simp only [List.mem_cons, List.not_mem_nil, or_false] at h6
  rcases h6 with rfl | rfl
  · exact ⟨_, 0xC0EC, rfl, rfl, rfl⟩
  · exact ⟨_, 0xC0ED, rfl, rfl, rfl⟩

theorem witness_ReadsServeTrackInOrder : spinning.wf = true ∧ spinning.hasDisk ∧ (∃ img, spinning.dev.drive.disk = some img) ∧
    spinning.dev.drive.motorOn = true ∧ spinning.dev.drive.q7 = false :=
  ⟨spinning_wf, ⟨⟨[], rfl⟩, ⟨[], rfl⟩⟩, ⟨_, rfl⟩, rfl, rfl⟩

theorem witness_SixAndTwoRoundTrip : (List.replicate 256 (0xFF : Byte)).length = 256 := List.length_replicate

theorem witness_AttachBuildsDisk : (List.replicate 143360 (0x00 : Byte)).length = 143360 ∧ State.reset.wf = true ∧
    ∀ ext ∈ [".do", ".dsk", ".po"], ext = ".do" ∨ ext = ".dsk" ∨ ext = ".po" :=
  ⟨List.length_replicate, by decide +kernel, by decide⟩

/-- R506: the pushed status has bit 4 clear and bit 5 set, and PC, 0xFFFF, is pushed as it stands. The vector's
high byte is the 0x4C placed at 0xFFFF. -/
theorem test_irq_entry : (let o := step (interrupted true)
    byteAt o 0x01FF = some 0xFF ∧ byteAt o 0x01FE = some 0xFF ∧ byteAt o 0x01FD = some 0x20 ∧
    after o (fun t => t.p.i && t.pc == 0x4CCC) = true) := by decide +kernel

/-- The error of a host call. -/
def ioError (r : Except IoError State) : Option IoError :=
  match r with
  | .ok _ => none
  | .error e => some e

/-- R68: a file that just fits, one that does not, a short one, none. -/
theorem test_loadBinary : ioError (loadBinary (some [0x01, 0x02]) 0xFFFE 2 start) = none ∧
    ioError (loadBinary (some [0x01, 0x02]) 0xFFFF 2 start) = some .outOfRange ∧
    ioError (loadBinary (some [0x01]) 0x0000 2 start) = some .shortFile ∧
    ioError (loadBinary none 0x0000 2 start) = some .missingFile := by decide +kernel

/-- R430: an image of the wrong length, and no file, leave the machine alone. -/
theorem test_attach_errors : ioError (attachDiskImage (some [0x00]) ".do" false start) = some .wrongLength ∧
    ioError (attachDiskImage none ".do" false start) = some .missingFile := by decide +kernel




end Sys2Proof.Tests
end

section
/-! Where a bus read that faults stops the operation that makes it, said once per shared operation of
the model (spec/00_scope.md R8; spec/20_memory.md R63; spec/60_exceptions.md R504). -/

namespace Sys2Proof.Machine

section
variable {s : State} {e : Fault}

/-! ### Faults in `Except` and in an outcome -/

/-- The counterpart of `bind_ok`: a computation faults in its first part, or in its second after it. -/
theorem bind_error_iff {α β : Type} {r : Except Fault α} {k : α → Except Fault β} :
    (r >>= k) = .error e ↔ r = .error e ∨ ∃ a, r = .ok a ∧ k a = .error e := by
  cases r with
  | error f => simp [bind, Except.bind]
  | ok a => simp [bind, Except.bind]

/-- Where the second part never faults, the computation faults exactly where the first part does. -/
theorem bind_error_iff_of_ok {α β : Type} {r : Except Fault α} {k : α → Except Fault β}
    (hk : ∀ a, ∃ b, k a = .ok b) : (r >>= k) = .error e ↔ r = .error e := by
  rw [bind_error_iff, or_iff_left]
  rintro ⟨a, -, ha⟩
  obtain ⟨b, hb⟩ := hk a
  cases hb.symm.trans ha

/-- An access that gives a value and a state, then a second part that faults as `P` says. -/
theorem bind_access_error_iff {α β : Type} {r : Except Fault (α × State)} {k : α × State → Except Fault β}
    {P : α → State → Prop} (hk : ∀ a u, k (a, u) = .error e ↔ P a u) :
    (r >>= k) = .error e ↔ r = .error e ∨ ∃ a u, r = .ok (a, u) ∧ P a u := by
  simp only [bind_error_iff, Prod.exists, hk]

theorem outcome_fault_iff {r : Except Fault State} : outcome r = .fault e ↔ r = .error e := by
  cases r with
  | error f => simp [outcome]
  | ok t => simp [outcome]

theorem outcome_bind_fault_iff {α : Type} {r : Except Fault α} {k : α → Except Fault State}
    (hk : ∀ a, ∃ t, k a = .ok t) : outcome (r >>= k) = .fault e ↔ r = .error e :=
  outcome_fault_iff.trans (bind_error_iff_of_ok hk)

/-! ### Pairs of reads and pulls -/

theorem readPair_error_iff {lo hi : Word} :
    readPair lo hi s = .error e ↔
      readByte lo s = .error e ∨ ∃ l s1, readByte lo s = .ok (l, s1) ∧ readByte hi s1 = .error e :=
  bind_access_error_iff fun _ _ => bind_error_iff_of_ok fun _ => ⟨_, rfl⟩

theorem pull16_error_iff :
    pull16 s = .error e ↔ pull s = .error e ∨ ∃ l s1, pull s = .ok (l, s1) ∧ pull s1 = .error e :=
  bind_access_error_iff fun _ _ => bind_error_iff_of_ok fun _ => ⟨_, rfl⟩

/-! ### Operands and access classes -/

/-- A zero-page address that wraps, as R127 and R130 write it. -/
theorem zext16_add (b c : Byte) : zext16 (b + c) = BitVec.ofNat 16 ((b.toNat + c.toNat) % 256) := by
  rw [zext16, ← BitVec.ofNat_toNat, BitVec.toNat_add]

theorem zext16_eq_ofNat (b : Byte) : zext16 b = BitVec.ofNat 16 b.toNat := (BitVec.ofNat_toNat 16 b).symm

theorem effAddr_izx_error_iff {b : Byte} :
    effAddr (.izx b) s = .error e ↔ zpPointer (b + s.x) s = .error e :=
  bind_error_iff_of_ok fun _ => ⟨_, rfl⟩

theorem effAddr_izy_error_iff {b : Byte} :
    effAddr (.izy b) s = .error e ↔ zpPointer b s = .error e :=
  bind_error_iff_of_ok fun _ => ⟨_, rfl⟩

/-- A zero-page pointer at `b` faults with its first read, or with its second, which stays in the zero page. -/
theorem zpPointer_error_iff {b : Byte} :
    zpPointer b s = .error e ↔
      readByte (BitVec.ofNat 16 b.toNat) s = .error e ∨
      ∃ lo s1, readByte (BitVec.ofNat 16 b.toNat) s = .ok (lo, s1) ∧
        readByte (BitVec.ofNat 16 ((b.toNat + 1) % 256)) s1 = .error e := by
  rw [zpPointer, readPair_error_iff, zext16_add, zext16_eq_ofNat]
  rfl

theorem readOperand_mem_error_iff {m : MemMode} :
    readOperand (.mem m) s = .error e ↔
      effAddr m s = .error e ∨
      ∃ ea crossed u, effAddr m s = .ok ((ea, crossed), u) ∧ readByte ea u = .error e :=
  (bind_access_error_iff fun _ _ => bind_error_iff_of_ok fun _ => ⟨_, rfl⟩).trans
    (or_congr_right Prod.exists)

theorem readClass_fault_iff {o : ReadOperand} {cycles : Nat} {pen : Bool} {f : Byte → State → State} :
    readClass o cycles pen f s = .fault e ↔ readOperand o s = .error e :=
  outcome_bind_fault_iff fun _ => ⟨_, rfl⟩

theorem writeClass_fault_iff {m : MemMode} {cycles : Nat} {v : Byte} :
    writeClass m cycles v s = .fault e ↔ effAddr m s = .error e :=
  outcome_bind_fault_iff fun _ => ⟨_, rfl⟩

/-- A read-modify-write of memory faults exactly where its operand cannot be read. -/
theorem rmwClass_mem_fault_iff {m : MemMode} {cycles : Nat} {f : RmwFn} :
    rmwClass (.mem m) cycles f s = .fault e ↔
      effAddr m s = .error e ∨
      ∃ ea crossed u, effAddr m s = .ok ((ea, crossed), u) ∧ readByte ea u = .error e :=
  outcome_fault_iff.trans ((bind_access_error_iff fun _ _ => bind_error_iff_of_ok fun _ => ⟨_, rfl⟩).trans
    (or_congr_right Prod.exists))

/-! ### Stack instructions, jumps and traps -/

theorem execPla_fault_iff : execPla s = .fault e ↔ pull s = .error e :=
  outcome_bind_fault_iff fun _ => ⟨_, rfl⟩

theorem execPlp_fault_iff : execPlp s = .fault e ↔ pull s = .error e :=
  outcome_bind_fault_iff fun _ => ⟨_, rfl⟩

theorem execRts_fault_iff :
    execRts s = .fault e ↔ pull s = .error e ∨ ∃ lo s1, pull s = .ok (lo, s1) ∧ pull s1 = .error e :=
  (outcome_bind_fault_iff fun _ => ⟨_, rfl⟩).trans pull16_error_iff

theorem leaveTrap_error_iff :
    leaveTrap s = .error e ↔
      pull s = .error e ∨ ∃ p s1, pull s = .ok (p, s1) ∧ pull16 (s1.setP (Flags.ofByte p)) = .error e :=
  bind_access_error_iff fun _ _ => .rfl

theorem execRti_fault_iff :
    execRti s = .fault e ↔
      pull s = .error e ∨ ∃ p s1, pull s = .ok (p, s1) ∧ pull16 (s1.setP (Flags.ofByte p)) = .error e :=
  (outcome_bind_fault_iff fun _ => ⟨_, rfl⟩).trans leaveTrap_error_iff

theorem loByte_succ (w : Word) : loByte (w + 1) = loByte w + 1 := by
  apply BitVec.eq_of_toNat_eq
  rw [BitVec.toNat_add, loByte_toNat, loByte_toNat, BitVec.toNat_add]
  simp

/-- The page of `w` with the low byte of `v`, in the mask form of R132. -/
theorem joinBytes_hiByte_loByte_eq_mask (w v : Word) :
    joinBytes (hiByte w) (loByte v) = (w &&& 0xFF00) ||| (v &&& 0x00FF) := by
  have hh : hiByte ((w &&& 0xFF00) ||| (v &&& 0x00FF)) = hiByte w := by
    have hi : hiByte 0xFF00 = BitVec.allOnes 8 := rfl
    have lo : hiByte 0x00FF = 0#8 := rfl
    simp only [hiByte] at hi lo
    simp only [hiByte, BitVec.extractLsb'_or, BitVec.extractLsb'_and, hi, lo, BitVec.and_allOnes,
      BitVec.and_zero, BitVec.or_zero]
  have hl : loByte ((w &&& 0xFF00) ||| (v &&& 0x00FF)) = loByte v := by
    have hi : loByte 0xFF00 = 0#8 := rfl
    have lo : loByte 0x00FF = BitVec.allOnes 8 := rfl
    simp only [loByte] at hi lo
    simp only [loByte, BitVec.extractLsb'_or, BitVec.extractLsb'_and, hi, lo, BitVec.and_allOnes,
      BitVec.and_zero, BitVec.zero_or]
  rw [← hh, ← hl, joinBytes_hi_lo]

theorem indirectHigh_eq (cfg : Config) (w : Word) :
    indirectHigh cfg w = if cfg.jmpIndWrap then (w &&& 0xFF00) ||| ((w + 1) &&& 0x00FF) else w + 1 := by
  rw [indirectHigh, ← loByte_succ, joinBytes_hiByte_loByte_eq_mask]

theorem execJmpInd_fault_iff {w : Word} :
    execJmpInd w s = .fault e ↔ readPair w (indirectHigh s.cfg w) s = .error e :=
  outcome_bind_fault_iff fun _ => ⟨_, rfl⟩

/-- A push leaves the flags alone. -/
theorem push_p (v : Byte) (s : State) : (push v s).p = s.p := by
  obtain ⟨d, m, h, -⟩ := push_frame v s
  rw [h]
  rfl

/-- Entering a trap is the two vector reads after the pushes, with I set and B as the trap sets it. -/
theorem enterTrap_eq (ret : Word) (status : Byte) (isBrk : Bool) (s : State) :
    enterTrap ret status isBrk s = readPair 0xFFFE 0xFFFF
      ((push status (push16 ret s)).setP { s.p with i := true, b := s.p.b || isBrk }) := by
  simp only [enterTrap, read16, push16, push_p]
  rfl

theorem execBrk_fault_iff :
    execBrk s = .fault e ↔ enterTrap (s.pc + 2) (s.p.serialize true) true s = .error e :=
  outcome_bind_fault_iff fun _ => ⟨_, rfl⟩

theorem takeIrq_fault_iff :
    takeIrq s = .fault e ↔ enterTrap s.pc (s.p.serialize true &&& 0xEF) false s = .error e :=
  outcome_bind_fault_iff fun _ => ⟨_, rfl⟩

/-! ### Fetch and step -/

/-- Bytes that end too early do so within the operand of their opcode's form. -/
theorem decode_truncated {op : Byte} {bs : List Byte} (h : decode (op :: bs) = .truncated) :
    ∃ r, lookupOpcode op = some r ∧ decodeForm r.form bs = .truncated := by
  rw [decode] at h
  cases hr : lookupOpcode op with
  | none => rw [hr] at h; cases h
  | some r => rw [hr] at h; exact ⟨r, rfl, h⟩

/-- After the opcode byte of a present opcode, a fetch is the fetch of its operand bytes. -/
theorem fetch_of_lookup {s1 : State} {op : Byte} {r : Row} (h : readByte s.pc s = .ok (op, s1))
    (hr : lookupOpcode op = some r) : fetch s = fetchOperands s.pc r.form s1 := by
  simp only [fetch, h, bind, Except.bind, hr]

/-- A form that is longer than its opcode byte reads its first operand byte first. -/
theorem fetchOperands_error_of_first {pc0 : Word} {f : Form}
    (hf : decodeForm f [] = .truncated) (h : readByte (pc0 + 1) s = .error e) :
    fetchOperands pc0 f s = .error e := by
  cases f with
  | f1 i => cases hf
  | f2 mk => exact bind_error_iff.2 (.inl h)
  | f3 mk => exact bind_error_iff.2 (.inl h)

/-- A form with more than one operand byte reads the second one after the first. -/
theorem fetchOperands_error_of_second {pc0 : Word} {f : Form} {s1 : State} {b1 : Byte}
    (hf : decodeForm f [b1] = .truncated) (h1 : readByte (pc0 + 1) s = .ok (b1, s1))
    (h2 : readByte (pc0 + 2) s1 = .error e) : fetchOperands pc0 f s = .error e := by
  cases f with
  | f1 i => cases hf
  | f2 mk => cases hf
  | f3 mk => exact bind_error_iff.2 (.inr ⟨_, h1, bind_error_iff.2 (.inl h2)⟩)

theorem step_of_irqPending (h : irqPending s = true) : step s = takeIrq s := if_pos h

theorem step_fault_of_fetch (hi : irqPending s = false) (h : fetch s = .error e) :
    step s = .fault e := by
  simp [step, hi, h]

theorem step_fault_of_opcode_read (hi : irqPending s = false)
    (h : readByte s.pc s = .error e) : step s = .fault e :=
  step_fault_of_fetch hi (bind_error_iff.2 (.inl h))

theorem step_fault_of_first_operand_read {s1 : State} {op : Byte} (hi : irqPending s = false)
    (h1 : readByte s.pc s = .ok (op, s1)) (ht : decode [op] = .truncated)
    (h2 : readByte (s.pc + 1) s1 = .error e) : step s = .fault e := by
  obtain ⟨r, hr, hf⟩ := decode_truncated ht
  exact step_fault_of_fetch hi ((fetch_of_lookup h1 hr).trans (fetchOperands_error_of_first hf h2))

theorem step_fault_of_second_operand_read {s1 s2 : State} {op b1 : Byte}
    (hi : irqPending s = false) (h1 : readByte s.pc s = .ok (op, s1))
    (h2 : readByte (s.pc + 1) s1 = .ok (b1, s2)) (ht : decode [op, b1] = .truncated)
    (h3 : readByte (s.pc + 2) s2 = .error e) : step s = .fault e := by
  obtain ⟨r, hr, hf⟩ := decode_truncated ht
  exact step_fault_of_fetch hi ((fetch_of_lookup h1 hr).trans (fetchOperands_error_of_second hf h2 h3))

end

/-! ### Forms

Each listed form of an instruction with an operand runs as its access class says
(spec/35_execution.md R124, R134): one lemma per mnemonic. The arms of `exec` for the whole list of forms, mapped
at once, are the class's runs by definition. -/

/-- Every form runs as a read-class instruction with its own operand, cycles and penalty and the effect. -/
def RunsReadClass (forms : Byte → Word → List ReadForm) (effect : Byte → State → State) : Prop :=
  ∀ b w, ∀ f ∈ forms b w, exec f.instr = readClass f.operand f.cycles f.penalty effect

/-- Every form runs as a write-class instruction that stores `val`. -/
def RunsWriteClass (forms : Byte → Word → List WriteForm) (val : State → Byte) : Prop :=
  ∀ b w, ∀ f ∈ forms b w, exec f.instr = fun s => writeClass f.operand f.cycles (val s) s

/-- Every form runs as a read-modify-write instruction with the function. -/
def RunsRmwClass (forms : Byte → Word → List RmwForm) (fn : RmwFn) : Prop :=
  ∀ b w, ∀ f ∈ forms b w, exec f.instr = rmwClass f.operand f.cycles fn

theorem ldaForms_readClass : RunsReadClass ldaForms loadA := fun _ _ => List.map_inj_left.1 rfl
theorem ldxForms_readClass : RunsReadClass ldxForms loadX := fun _ _ => List.map_inj_left.1 rfl
theorem ldyForms_readClass : RunsReadClass ldyForms loadY := fun _ _ => List.map_inj_left.1 rfl
theorem adcForms_readClass : RunsReadClass adcForms adc := fun _ _ => List.map_inj_left.1 rfl
theorem sbcForms_readClass : RunsReadClass sbcForms sbc := fun _ _ => List.map_inj_left.1 rfl
theorem andForms_readClass : RunsReadClass andForms andA := fun _ _ => List.map_inj_left.1 rfl
theorem oraForms_readClass : RunsReadClass oraForms oraA := fun _ _ => List.map_inj_left.1 rfl
theorem eorForms_readClass : RunsReadClass eorForms eorA := fun _ _ => List.map_inj_left.1 rfl
theorem bitForms_readClass : RunsReadClass bitForms bitA := fun _ _ => List.map_inj_left.1 rfl
theorem cmpForms_readClass : RunsReadClass cmpForms cmpA := fun _ _ => List.map_inj_left.1 rfl
theorem cpxForms_readClass : RunsReadClass cpxForms cmpX := fun _ _ => List.map_inj_left.1 rfl
theorem cpyForms_readClass : RunsReadClass cpyForms cmpY := fun _ _ => List.map_inj_left.1 rfl

theorem staForms_writeClass : RunsWriteClass staForms State.a := fun _ _ => List.map_inj_left.1 rfl
theorem stxForms_writeClass : RunsWriteClass stxForms State.x := fun _ _ => List.map_inj_left.1 rfl
theorem styForms_writeClass : RunsWriteClass styForms State.y := fun _ _ => List.map_inj_left.1 rfl

theorem incForms_rmwClass : RunsRmwClass incForms incByte := fun _ _ => List.map_inj_left.1 rfl
theorem decForms_rmwClass : RunsRmwClass decForms decByte := fun _ _ => List.map_inj_left.1 rfl
theorem aslForms_rmwClass : RunsRmwClass aslForms aslByte := fun _ _ => List.map_inj_left.1 rfl
theorem lsrForms_rmwClass : RunsRmwClass lsrForms lsrByte := fun _ _ => List.map_inj_left.1 rfl
theorem rolForms_rmwClass : RunsRmwClass rolForms rolByte := fun _ _ => List.map_inj_left.1 rfl
theorem rorForms_rmwClass : RunsRmwClass rorForms rorByte := fun _ _ => List.map_inj_left.1 rfl

/-! ### What stops each form -/

theorem RunsReadClass.fault_iff {forms : Byte → Word → List ReadForm} {effect : Byte → State → State}
    (h : RunsReadClass forms effect) {b : Byte} {w : Word} :
    ∀ f ∈ forms b w, ∀ s e, exec f.instr s = .fault e ↔ readOperand f.operand s = .error e := by
  intro f hf s e
  rw [h b w f hf]
  exact readClass_fault_iff

theorem RunsWriteClass.fault_iff {forms : Byte → Word → List WriteForm} {val : State → Byte}
    (h : RunsWriteClass forms val) {b : Byte} {w : Word} :
    ∀ f ∈ forms b w, ∀ s e, exec f.instr s = .fault e ↔ effAddr f.operand s = .error e := by
  intro f hf s e
  rw [h b w f hf]
  exact writeClass_fault_iff

theorem RunsRmwClass.fault_iff {forms : Byte → Word → List RmwForm} {fn : RmwFn}
    (h : RunsRmwClass forms fn) {b : Byte} {w : Word} :
    ∀ f ∈ forms b w, ∀ m s e, f.operand = .mem m →
      (exec f.instr s = .fault e ↔ effAddr m s = .error e ∨
        ∃ ea crossed u, effAddr m s = .ok ((ea, crossed), u) ∧ readByte ea u = .error e) := by
  intro f hf m s e hm
  rw [h b w f hf, hm]
  exact rmwClass_mem_fault_iff

/-- A form of any read-class mnemonic stops exactly where its operand cannot be read. -/
theorem readForms_fault_iff (b : Byte) (w : Word) :
    ∀ f ∈ ldaForms b w ++ ldxForms b w ++ ldyForms b w ++ adcForms b w ++ sbcForms b w ++ andForms b w ++
      oraForms b w ++ eorForms b w ++ bitForms b w ++ cmpForms b w ++ cpxForms b w ++ cpyForms b w,
    ∀ s e, exec f.instr s = .fault e ↔ readOperand f.operand s = .error e := by
  simp only [List.forall_mem_append, and_assoc]
  exact ⟨ldaForms_readClass.fault_iff, ldxForms_readClass.fault_iff, ldyForms_readClass.fault_iff,
    adcForms_readClass.fault_iff, sbcForms_readClass.fault_iff, andForms_readClass.fault_iff,
    oraForms_readClass.fault_iff, eorForms_readClass.fault_iff, bitForms_readClass.fault_iff,
    cmpForms_readClass.fault_iff, cpxForms_readClass.fault_iff, cpyForms_readClass.fault_iff⟩

/-- A store stops exactly where its address cannot be found. -/
theorem writeForms_fault_iff (b : Byte) (w : Word) :
    ∀ f ∈ staForms b w ++ stxForms b w ++ styForms b w, ∀ s e,
      exec f.instr s = .fault e ↔ effAddr f.operand s = .error e := by
  simp only [List.forall_mem_append, and_assoc]
  exact ⟨staForms_writeClass.fault_iff, stxForms_writeClass.fault_iff, styForms_writeClass.fault_iff⟩

/-- A read-modify-write of memory stops exactly where its operand cannot be read. -/
theorem rmwForms_fault_iff (b : Byte) (w : Word) :
    ∀ f ∈ incForms b w ++ decForms b w ++ aslForms b w ++ lsrForms b w ++ rolForms b w ++ rorForms b w,
    ∀ m s e, f.operand = .mem m →
      (exec f.instr s = .fault e ↔ effAddr m s = .error e ∨
        ∃ ea crossed u, effAddr m s = .ok ((ea, crossed), u) ∧ readByte ea u = .error e) := by
  simp only [List.forall_mem_append, and_assoc]
  exact ⟨incForms_rmwClass.fault_iff, decForms_rmwClass.fault_iff, aslForms_rmwClass.fault_iff,
    lsrForms_rmwClass.fault_iff, rolForms_rmwClass.fault_iff, rorForms_rmwClass.fault_iff⟩

/-! ### The obligation of spec/00_scope.md -/

/-- Settles O8: each clause names one read of an operation, and the lemma that says where the operation
faults has a fault of that read among its cases. -/
theorem busFaultStopsInstruction : Obligations.BusFaultStopsInstruction := by
  refine ⟨fun s e hi => ?fetch, fun b s e => ?pointers, fun m s e => ?operand,
    fun b w f hf s e => (readForms_fault_iff b w f hf s e).2,
    fun b w f hf s e => (writeForms_fault_iff b w f hf s e).2,
    fun b w f hf m s e hm => (rmwForms_fault_iff b w f hf m s e hm).2,
    fun s e h => ?pulls, fun s lo s1 e h1 h2 => execRts_fault_iff.2 (.inr ⟨lo, s1, h1, h2⟩),
    fun s p s1 e h1 => ?rti, fun w s e => ?jmpInd, fun s e => ?brk, fun s e hc hl hp => ?irq⟩
  case fetch =>
    exact ⟨step_fault_of_fetch hi, step_fault_of_opcode_read hi, fun op s1 h1 =>
      ⟨step_fault_of_first_operand_read hi h1, fun b1 s2 => step_fault_of_second_operand_read hi h1⟩⟩
  case pointers =>
    have izx := (effAddr_izx_error_iff (b := b) (s := s) (e := e)).trans zpPointer_error_iff
    have izy := (effAddr_izy_error_iff (b := b) (s := s) (e := e)).trans zpPointer_error_iff
    rw [BitVec.toNat_add] at izx
    exact ⟨⟨fun h => izx.2 (.inl h), fun lo s1 h1 h2 => izx.2 (.inr ⟨lo, s1, h1, h2⟩)⟩,
      fun h => izy.2 (.inl h), fun lo s1 h1 h2 => izy.2 (.inr ⟨lo, s1, h1, h2⟩)⟩
  case operand =>
    exact ⟨fun h => readOperand_mem_error_iff.2 (.inl h), fun ea crossed u h1 h2 =>
      readOperand_mem_error_iff.2 (.inr ⟨ea, crossed, u, h1, h2⟩)⟩
  case pulls =>
    exact ⟨execPla_fault_iff.2 h, execPlp_fault_iff.2 h, execRts_fault_iff.2 (.inl h),
      execRti_fault_iff.2 (.inl h)⟩
  case rti =>
    have rti := fun h => (execRti_fault_iff (e := e)).2 (.inr ⟨p, s1, h1, pull16_error_iff.2 h⟩)
    exact ⟨fun h2 => rti (.inl h2), fun lo s2 h2 h3 => rti (.inr ⟨lo, s2, h2, h3⟩)⟩
  case jmpInd =>
    have jmp := (execJmpInd_fault_iff (w := w) (s := s) (e := e)).trans readPair_error_iff
    rw [indirectHigh_eq] at jmp
    exact ⟨fun h => jmp.2 (.inl h), fun lo s1 h1 h2 => jmp.2 (.inr ⟨lo, s1, h1, h2⟩)⟩
  case brk =>
    have brk := execBrk_fault_iff (s := s) (e := e)
    rw [enterTrap_eq, readPair_error_iff, Bool.or_true] at brk
    exact ⟨fun h => brk.2 (.inl h), fun lo s3 h1 h2 => brk.2 (.inr ⟨lo, s3, h1, h2⟩)⟩
  case irq =>
    have hi : irqPending s = true := by simp [irqPending, hc, hl, hp]
    have irq := takeIrq_fault_iff (s := s) (e := e)
    rw [← step_of_irqPending hi, enterTrap_eq, readPair_error_iff, Bool.or_false] at irq
    exact ⟨fun h => irq.2 (.inl h), fun lo s3 h1 h2 => irq.2 (.inr ⟨lo, s3, h1, h2⟩)⟩

end Sys2Proof.Machine
end

section
/-! What a step leaves good and what it leaves alone (spec/10_state.md R20 to R37). `RunsAs` says once how the
instructions with a descriptor run: as one of the shared operations with the mnemonic's effect, or in a way of
their own. Every fact about `exec` here is a case split over it. -/

namespace Sys2Proof.Machine

/-! ### How the instructions run -/

/-- The effect of a mnemonic of the read class on the state, given its operand byte. -/
inductive ReadEffect : Mnemonic → (Byte → State → State) → Prop
  | lda : ReadEffect .lda loadA
  | ldx : ReadEffect .ldx loadX
  | ldy : ReadEffect .ldy loadY
  | adc : ReadEffect .adc adc
  | sbc : ReadEffect .sbc sbc
  | and : ReadEffect .and andA
  | ora : ReadEffect .ora oraA
  | eor : ReadEffect .eor eorA
  | bit : ReadEffect .bit bitA
  | cmp : ReadEffect .cmp cmpA
  | cpx : ReadEffect .cpx cmpX
  | cpy : ReadEffect .cpy cmpY

/-- The register a store writes to memory. -/
inductive StoredValue : Mnemonic → (State → Byte) → Prop
  | sta : StoredValue .sta State.a
  | stx : StoredValue .stx State.x
  | sty : StoredValue .sty State.y

/-- The function of a shift or rotate, which has an accumulator form. -/
inductive ShiftFn : Mnemonic → RmwFn → Prop
  | asl : ShiftFn .asl aslByte
  | lsr : ShiftFn .lsr lsrByte
  | rol : ShiftFn .rol rolByte
  | ror : ShiftFn .ror rorByte

/-- The function of a mnemonic that reads, modifies and writes memory. -/
inductive MemFn : Mnemonic → RmwFn → Prop
  | inc : MemFn .inc incByte
  | dec : MemFn .dec decByte
  | shift {mn : Mnemonic} {fn : RmwFn} (h : ShiftFn mn fn) : MemFn mn fn

/-- The effect of a one-byte instruction that cannot fault. -/
inductive ImpliedEffect : Mnemonic → (State → State) → Prop
  | tax : ImpliedEffect .tax fun s => loadX s.a s
  | tay : ImpliedEffect .tay fun s => loadY s.a s
  | txa : ImpliedEffect .txa fun s => loadA s.x s
  | tya : ImpliedEffect .tya fun s => loadA s.y s
  | tsx : ImpliedEffect .tsx fun s => loadX s.sp s
  | txs : ImpliedEffect .txs fun s => s.setSp s.x
  | inx : ImpliedEffect .inx fun s => loadX (s.x + 1) s
  | iny : ImpliedEffect .iny fun s => loadY (s.y + 1) s
  | dex : ImpliedEffect .dex fun s => loadX (s.x - 1) s
  | dey : ImpliedEffect .dey fun s => loadY (s.y - 1) s
  | pha : ImpliedEffect .pha fun s => push s.a s
  | php : ImpliedEffect .php fun s => push (s.p.serialize true) s
  | clc : ImpliedEffect .clc fun s => s.setP { s.p with c := false }
  | sec : ImpliedEffect .sec fun s => s.setP { s.p with c := true }
  | cli : ImpliedEffect .cli fun s => s.setP { s.p with i := false }
  | sei : ImpliedEffect .sei fun s => s.setP { s.p with i := true }
  | cld : ImpliedEffect .cld fun s => s.setP { s.p with d := false }
  | sed : ImpliedEffect .sed fun s => s.setP { s.p with d := true }
  | clv : ImpliedEffect .clv fun s => s.setP { s.p with v := false }
  | nop : ImpliedEffect .nop id

/-- The ways in which an instruction with the descriptor runs in state `s`. -/
inductive RunsAs (d : Descriptor) (s : State) : Host.Outcome State Fault Refusal → Prop
  | read {f : Byte → State → State} {o : ReadOperand} (h : ReadEffect d.mnemonic f) :
      RunsAs d s (readClass o d.cycles d.pagePenalty f s)
  | write {v : State → Byte} {m : MemMode} (h : StoredValue d.mnemonic v) :
      RunsAs d s (writeClass m d.cycles (v s) s)
  | rmwAcc {fn : RmwFn} (h : ShiftFn d.mnemonic fn) (hm : d.mode = .acc) : RunsAs d s (rmwClass .acc d.cycles fn s)
  | rmwMem {fn : RmwFn} {m : MemMode} (h : MemFn d.mnemonic fn) (hm : d.mode ≠ .acc) :
      RunsAs d s (rmwClass (.mem m) d.cycles fn s)
  | implied {f : State → State} (h : ImpliedEffect d.mnemonic f) : RunsAs d s (implied d.cycles f s)
  | branch {taken : Bool} {b : Byte} (hm : d.mode = .rel) : RunsAs d s (branch taken b s)
  | pla (h : d.mnemonic = .pla) : RunsAs d s (execPla s)
  | plp (h : d.mnemonic = .plp) : RunsAs d s (execPlp s)
  | jmpAbs {w : Word} (h : d.mnemonic = .jmp) : RunsAs d s (execJmpAbs w s)
  | jmpInd {w : Word} (h : d.mnemonic = .jmp) : RunsAs d s (execJmpInd w s)
  | jsr {w : Word} (h : d.mnemonic = .jsr) : RunsAs d s (execJsr w s)
  | rts (h : d.mnemonic = .rts) : RunsAs d s (execRts s)
  | rti (h : d.mnemonic = .rti) : RunsAs d s (execRti s)
  | brk (h : d.mnemonic = .brk) : RunsAs d s (execBrk s)

/-- Every instruction has a descriptor and runs as the descriptor says. -/
theorem exec_runsAs (i : Instr) (s : State) : ∃ d, i.descriptor = some d ∧ RunsAs d s (exec i s) := by
  cases i <;> rw [exec]
  case ldaImm | ldxImm | ldyImm | adcImm | sbcImm | andImm | oraImm | eorImm | cmpImm | cpxImm | cpyImm | ldaIzx |
      ldaZp | ldaAbs | ldaIzy | ldaZpx | ldaAbsy | ldaAbsx | ldxZp | ldxAbs | ldxZpy | ldxAbsy | ldyZp | ldyAbs |
      ldyZpx | ldyAbsx | adcIzx | adcZp | adcAbs | adcIzy | adcZpx | adcAbsy | adcAbsx | sbcIzx | sbcZp | sbcAbs |
      sbcIzy | sbcZpx | sbcAbsy | sbcAbsx | andIzx | andZp | andAbs | andIzy | andZpx | andAbsy | andAbsx | oraIzx |
      oraZp | oraAbs | oraIzy | oraZpx | oraAbsy | oraAbsx | eorIzx | eorZp | eorAbs | eorIzy | eorZpx | eorAbsy |
      eorAbsx | bitZp | bitAbs | cmpIzx | cmpZp | cmpAbs | cmpIzy | cmpZpx | cmpAbsy | cmpAbsx | cpxZp | cpxAbs |
      cpyZp | cpyAbs =>
    refine ⟨_, rfl, .read ?_⟩
    constructor
  case staIzx | staZp | staAbs | staIzy | staZpx | staAbsy | staAbsx | stxZp | stxAbs | stxZpy | styZp | styAbs |
      styZpx =>
    refine ⟨_, rfl, .write ?_⟩
    constructor
  case aslAcc | lsrAcc | rolAcc | rorAcc =>
    refine ⟨_, rfl, .rmwAcc ?_ rfl⟩
    constructor
  case incZp | incAbs | incZpx | incAbsx | decZp | decAbs | decZpx | decAbsx =>
    refine ⟨_, rfl, .rmwMem ?_ nofun⟩
    constructor
  case aslZp | aslAbs | aslZpx | aslAbsx | lsrZp | lsrAbs | lsrZpx | lsrAbsx | rolZp | rolAbs | rolZpx | rolAbsx |
      rorZp | rorAbs | rorZpx | rorAbsx =>
    refine ⟨_, rfl, .rmwMem (.shift ?_) nofun⟩
    constructor
  case tax | tay | txa | tya | tsx | txs | inx | iny | dex | dey | pha | php | clc | sec | cli | sei | cld | sed |
      clv | nop =>
    refine ⟨_, rfl, .implied ?_⟩
    constructor
  case bcc | bcs | beq | bne | bmi | bpl | bvc | bvs => exact ⟨_, rfl, .branch rfl⟩
  case pla => exact ⟨_, rfl, .pla rfl⟩
  case plp => exact ⟨_, rfl, .plp rfl⟩
  case jmpAbs => exact ⟨_, rfl, .jmpAbs rfl⟩
  case jmpInd => exact ⟨_, rfl, .jmpInd rfl⟩
  case jsr => exact ⟨_, rfl, .jsr rfl⟩
  case rts => exact ⟨_, rfl, .rts rfl⟩
  case rti => exact ⟨_, rfl, .rti rfl⟩
  case brk => exact ⟨_, rfl, .brk rfl⟩

theorem runsAs_of_descriptor {i : Instr} {d : Descriptor} (h : i.descriptor = some d) (s : State) :
    RunsAs d s (exec i s) := by
  obtain ⟨e, he, hr⟩ := exec_runsAs i s
  obtain rfl : e = d := Option.some.inj (he.symm.trans h)
  exact hr

/-! ### What every step keeps -/

section
variable {s t : State} {d : Descriptor} {mn : Mnemonic}

theorem ReadEffect.evolves {f : Byte → State → State} (h : ReadEffect mn f) (m : Byte) (s : State) :
    Evolves s (f m s) := by
  cases h with
  | lda | and | ora | eor => exact loadA_evolves _ s
  | ldx => exact loadX_evolves _ s
  | ldy => exact loadY_evolves _ s
  | adc | sbc => exact writeAlu_evolves _ s
  | bit | cmp | cpx | cpy => exact evolves_setP s _

theorem ImpliedEffect.evolves {f : State → State} (h : ImpliedEffect mn f) (s : State) : Evolves s (f s) := by
  cases h with
  | txa | tya => exact loadA_evolves _ s
  | tax | tsx | inx | dex => exact loadX_evolves _ s
  | tay | iny | dey => exact loadY_evolves _ s
  | txs => exact evolves_setSp s _
  | pha | php => exact push_evolves _ s
  | clc | sec | cli | sei | cld | sed | clv => exact evolves_setP s _
  | nop => exact .refl s

/-- An access that evolves the state, and a second part that answers and evolves it on. -/
theorem evolves_of_outcome_bind {α : Type} {r : Except Fault (α × State)} {k : α × State → Except Fault State}
    (hr : ∀ v u, r = .ok (v, u) → Evolves s u) (hk : ∀ v u, ∃ t, k (v, u) = .ok t ∧ Evolves u t)
    (h : outcome (r >>= k) = .next t) : Evolves s t := by
  obtain ⟨⟨v, u⟩, h1, h2⟩ := bind_ok (outcome_next h)
  obtain ⟨t', ht, he⟩ := hk v u
  obtain rfl : t' = t := Except.ok.inj (ht.symm.trans h2)
  exact (hr v u h1).trans he

theorem ok_complete_evolves (u : State) (pc : Word) (cost : Nat) :
    ∃ t, (.ok (complete pc cost u) : Except Fault State) = .ok t ∧ Evolves u t :=
  ⟨_, rfl, evolves_complete u pc cost⟩

/-- However an instruction runs, it makes bus accesses and register updates alone. -/
theorem RunsAs.evolves {o : Host.Outcome State Fault Refusal} (h : RunsAs d s o) (ho : o = .next t) :
    Evolves s t := by
  cases h with
  | read he => exact readClass_evolves he.evolves ho
  | write => exact writeClass_evolves ho
  | rmwAcc | rmwMem => exact rmwClass_evolves ho
  | implied he => exact implied_evolves (he.evolves s) ho
  | branch => exact branch_evolves ho
  | pla =>
    exact evolves_of_outcome_bind (fun _ _ => pull_evolves)
      (fun v u => ⟨_, rfl, (loadA_evolves v u).trans (evolves_complete _ _ _)⟩) ho
  | plp =>
    exact evolves_of_outcome_bind (fun _ _ => pull_evolves)
      (fun v u => ⟨_, rfl, (evolves_setP u _).trans (evolves_complete _ _ _)⟩) ho
  | jmpAbs => cases ho; exact evolves_complete _ _ _
  | jmpInd =>
    exact evolves_of_outcome_bind (fun _ _ => indirectTarget_evolves) (fun _ u => ok_complete_evolves u _ _) ho
  | jsr => cases ho; exact (push16_evolves _ s).trans (evolves_complete _ _ _)
  | rts => exact evolves_of_outcome_bind (fun _ _ => pull16_evolves) (fun _ u => ok_complete_evolves u _ _) ho
  | rti => exact evolves_of_outcome_bind (fun _ _ => leaveTrap_evolves) (fun _ u => ok_complete_evolves u _ _) ho
  | brk => exact evolves_of_outcome_bind (fun _ _ => enterTrap_evolves) (fun _ u => ok_complete_evolves u _ _) ho

theorem exec_evolves {i : Instr} (h : exec i s = .next t) : Evolves s t := by
  obtain ⟨d, -, hr⟩ := exec_runsAs i s
  exact hr.evolves h

/-- Everything a step keeps: it takes the IRQ, or it fetches an instruction and runs it. -/
theorem step_evolves (h : step s = .next t) : Evolves s t := by
  obtain ⟨-, hi⟩ | ⟨-, i, s1, hf, hx⟩ := step_next h
  · exact takeIrq_evolves hi
  · exact (evolves_of_setDev (fetch_frame hf)).trans (exec_evolves hx)

/-! ### Flags -/

/-- The flags that the table of R26 does not list for the mnemonic are the same in `q` as in `p`. -/
def UnlistedKept (mn : Mnemonic) (p q : Flags) : Prop := ∀ f, mn ∉ flagWriters f → q.value f = p.value f

theorem UnlistedKept.refl (mn : Mnemonic) (p : Flags) : UnlistedKept mn p p := fun _ _ => rfl

/-- The seven flags one by one. -/
theorem unlistedKept_iff {p q : Flags} : UnlistedKept mn p q ↔
    (mn ∉ flagWriters .n → q.n = p.n) ∧ (mn ∉ flagWriters .v → q.v = p.v) ∧ (mn ∉ flagWriters .b → q.b = p.b) ∧
      (mn ∉ flagWriters .d → q.d = p.d) ∧ (mn ∉ flagWriters .i → q.i = p.i) ∧
      (mn ∉ flagWriters .z → q.z = p.z) ∧ (mn ∉ flagWriters .c → q.c = p.c) := by
  refine ⟨fun h => ⟨h .n, h .v, h .b, h .d, h .i, h .z, h .c⟩, ?_⟩
  rintro ⟨hn, hv, hb, hd, hi, hz, hc⟩ f
  cases f with
  | n => exact hn
  | v => exact hv
  | b => exact hb
  | d => exact hd
  | i => exact hi
  | z => exact hz
  | c => exact hc

section
variable (hn : mn ∈ flagWriters .n) (hz : mn ∈ flagWriters .z)
include hn hz

theorem setNZ_unlistedKept (v : Byte) (p : Flags) : UnlistedKept mn p (p.setNZ v) := by
  simp [unlistedKept_iff, hn, hz]

theorem setNZC_unlistedKept (hc : mn ∈ flagWriters .c) (v : Byte) (c : Bool) (p : Flags) :
    UnlistedKept mn p (p.setNZC v c) := by
  simp [unlistedKept_iff, hn, hz, hc, Flags.setNZC]

theorem bitTest_unlistedKept (hv : mn ∈ flagWriters .v) (a m : Byte) (p : Flags) :
    UnlistedKept mn p (p.bitTest a m) := by
  simp [unlistedKept_iff, hn, hz, hv, Flags.bitTest]

theorem writeAlu_unlistedKept (hv : mn ∈ flagWriters .v) (hc : mn ∈ flagWriters .c) (r : AluResult) (s : State) :
    UnlistedKept mn s.p (writeAlu r s).p := by
  obtain ⟨n, v, z, k, h⟩ := writeAlu_frame r s
  simp [unlistedKept_iff, hn, hz, hv, hc, h]

end

/-- Nothing is claimed of a mnemonic listed for every flag, as PLP and RTI are. -/
theorem UnlistedKept.of_forall_mem (h : ∀ f, mn ∈ flagWriters f) (p q : Flags) : UnlistedKept mn p q :=
  fun f hf => absurd (h f) hf

theorem plp_mem_flagWriters (f : FlagName) : .plp ∈ flagWriters f := by
  cases f <;> decide

theorem rti_mem_flagWriters (f : FlagName) : .rti ∈ flagWriters f := by
  cases f <;> decide

theorem ReadEffect.unlistedKept {f : Byte → State → State} (h : ReadEffect mn f) (m : Byte) (s : State) :
    UnlistedKept mn s.p (f m s).p := by
  cases h with
  | lda | ldx | ldy | and | ora | eor => exact setNZ_unlistedKept (by decide) (by decide) _ s.p
  | adc | sbc => exact writeAlu_unlistedKept (by decide) (by decide) (by decide) (by decide) _ s
  | bit => exact bitTest_unlistedKept (by decide) (by decide) (by decide) s.a m s.p
  | cmp | cpx | cpy => exact setNZC_unlistedKept (by decide) (by decide) (by decide) _ _ s.p

theorem ShiftFn.unlistedKept {fn : RmwFn} (h : ShiftFn mn fn) (v : Byte) (p : Flags) :
    UnlistedKept mn p (fn v p).2 := by
  cases h with
  | asl | lsr | rol | ror => exact setNZC_unlistedKept (by decide) (by decide) (by decide) _ _ p

theorem MemFn.unlistedKept {fn : RmwFn} (h : MemFn mn fn) (v : Byte) (p : Flags) :
    UnlistedKept mn p (fn v p).2 := by
  cases h with
  | inc | dec => exact setNZ_unlistedKept (by decide) (by decide) _ p
  | shift hs => exact hs.unlistedKept v p

theorem ImpliedEffect.unlistedKept {f : State → State} (h : ImpliedEffect mn f) (s : State) :
    UnlistedKept mn s.p (f s).p := by
  cases h with
  | tax | tay | txa | tya | tsx | inx | iny | dex | dey => exact setNZ_unlistedKept (by decide) (by decide) _ s.p
  | txs | nop => exact .refl _ s.p
  | pha | php => rw [push_p]; exact .refl _ s.p
  | clc | sec | cli | sei | cld | sed | clv => simp [unlistedKept_iff, flagWriters]

/-! ### A, X, Y and SP -/

/-- The registers that the descriptor does not mark as written are as they were. -/
def UnwrittenKept (d : Descriptor) (s t : State) : Prop :=
  (writesA d = false → t.a = s.a) ∧ (writesX d = false → t.x = s.x) ∧
    (writesY d = false → t.y = s.y) ∧ (writesSp d = false → t.sp = s.sp)

theorem loadA_unwrittenKept (hw : writesA d = true) (v : Byte) (s : State) : UnwrittenKept d s (loadA v s) := by
  simp [UnwrittenKept, loadA, hw]

theorem loadX_unwrittenKept (hw : writesX d = true) (v : Byte) (s : State) : UnwrittenKept d s (loadX v s) := by
  simp [UnwrittenKept, loadX, hw]

theorem loadY_unwrittenKept (hw : writesY d = true) (v : Byte) (s : State) : UnwrittenKept d s (loadY v s) := by
  simp [UnwrittenKept, loadY, hw]

theorem setP_unwrittenKept (p : Flags) (s : State) : UnwrittenKept d s (s.setP p) := by
  simp [UnwrittenKept]

theorem writeAlu_unwrittenKept (hw : writesA d = true) (r : AluResult) (s : State) :
    UnwrittenKept d s (writeAlu r s) := by
  obtain ⟨n, v, z, k, h⟩ := writeAlu_frame r s
  simp [UnwrittenKept, h, hw]

theorem push_unwrittenKept (hw : writesSp d = true) (v : Byte) (s : State) : UnwrittenKept d s (push v s) := by
  obtain ⟨dv, m, h, -⟩ := push_frame v s
  simp [UnwrittenKept, h, hw]

section
variable {mode : Mode} {cycles length : Nat} {ctl pen : Bool}

theorem ReadEffect.unwrittenKept {f : Byte → State → State} (h : ReadEffect mn f) (m : Byte) (s : State) :
    UnwrittenKept ⟨mn, mode, cycles, length, ctl, pen⟩ s (f m s) := by
  cases h with
  | lda | and | ora | eor => exact loadA_unwrittenKept (by simp [writesA]) _ s
  | ldx => exact loadX_unwrittenKept (by simp [writesX]) _ s
  | ldy => exact loadY_unwrittenKept (by simp [writesY]) _ s
  | adc | sbc => exact writeAlu_unwrittenKept (by simp [writesA]) _ s
  | bit | cmp | cpx | cpy => exact setP_unwrittenKept _ s

theorem ShiftFn.writesA_acc {fn : RmwFn} (h : ShiftFn mn fn) :
    writesA ⟨mn, .acc, cycles, length, ctl, pen⟩ = true := by
  cases h with
  | asl | lsr | rol | ror => simp [writesA]

theorem ImpliedEffect.unwrittenKept {f : State → State} (h : ImpliedEffect mn f) (s : State) :
    UnwrittenKept ⟨mn, mode, cycles, length, ctl, pen⟩ s (f s) := by
  cases h with
  | txa | tya => exact loadA_unwrittenKept (by simp [writesA]) _ s
  | tax | tsx | inx | dex => exact loadX_unwrittenKept (by simp [writesX]) _ s
  | tay | iny | dey => exact loadY_unwrittenKept (by simp [writesY]) _ s
  | txs => simp [UnwrittenKept, writesSp]
  | pha | php => exact push_unwrittenKept (by simp [writesSp]) _ s
  | clc | sec | cli | sei | cld | sed | clv => exact setP_unwrittenKept _ s
  | nop => simp [UnwrittenKept]

end

/-! ### The frame of an instruction -/

/-- A next state differs from `s` in no flag that R26 does not list for the mnemonic, and in no register that
the descriptor does not mark as written. -/
theorem RunsAs.frame {o : Host.Outcome State Fault Refusal} (h : RunsAs d s o) (ho : o = .next t) :
    UnlistedKept d.mnemonic s.p t.p ∧ UnwrittenKept d s t := by
  obtain ⟨mn, mode, cycles, length, ctl, pen⟩ := d
  cases h with
  | read he =>
    obtain ⟨m, crossed, dv, -, rfl⟩ := readClass_frame ho
    exact ⟨he.unlistedKept m (s.setDev dv), he.unwrittenKept m (s.setDev dv)⟩
  | write =>
    obtain ⟨ea, crossed, u, dv, m, -, rfl, -⟩ := writeClass_frame ho
    exact ⟨.refl _ s.p, by simp [UnwrittenKept]⟩
  | rmwAcc hs hm =>
    cases hm
    rw [rmwClass_acc_frame ho]
    exact ⟨hs.unlistedKept s.a s.p, by simp [UnwrittenKept, hs.writesA_acc]⟩
  | rmwMem hf =>
    obtain ⟨ea, crossed, u, v, dv, m, -, rfl, -⟩ := rmwClass_mem_frame ho
    exact ⟨hf.unlistedKept v s.p, by simp [UnwrittenKept]⟩
  | implied he =>
    rw [implied_frame ho]
    exact ⟨he.unlistedKept s, he.unwrittenKept s⟩
  | branch =>
    obtain ⟨pc, rfl⟩ := branch_frame ho
    exact ⟨.refl _ s.p, by simp [UnwrittenKept]⟩
  | pla hm =>
    cases hm
    obtain ⟨v, dv, rfl⟩ := execPla_frame ho
    exact ⟨setNZ_unlistedKept (mn := .pla) (by decide) (by decide) v s.p,
      by simp [UnwrittenKept, writesA, writesSp, loadA]⟩
  | plp hm =>
    cases hm
    obtain ⟨v, dv, rfl⟩ := execPlp_frame ho
    exact ⟨.of_forall_mem plp_mem_flagWriters s.p _, by simp [UnwrittenKept, writesSp]⟩
  | jmpAbs =>
    cases ho
    exact ⟨.refl _ s.p, by simp [UnwrittenKept]⟩
  | jmpInd =>
    obtain ⟨pc, dv, rfl⟩ := execJmpInd_frame ho
    exact ⟨.refl _ s.p, by simp [UnwrittenKept]⟩
  | jsr hm =>
    cases hm
    obtain ⟨dv, m, rfl, -⟩ := execJsr_frame ho
    exact ⟨.refl _ s.p, by simp [UnwrittenKept, writesSp]⟩
  | rts hm =>
    cases hm
    obtain ⟨pc, dv, rfl⟩ := execRts_frame ho
    exact ⟨.refl _ s.p, by simp [UnwrittenKept, writesSp]⟩
  | rti hm =>
    cases hm
    obtain ⟨pc, dv, st, rfl⟩ := execRti_frame ho
    exact ⟨.of_forall_mem rti_mem_flagWriters s.p _, by simp [UnwrittenKept, writesSp]⟩
  | brk hm =>
    cases hm
    obtain ⟨pc, dv, m, rfl, -⟩ := execBrk_frame ho
    exact ⟨by simp [unlistedKept_iff, flagWriters], by simp [UnwrittenKept, writesSp]⟩

end

/-! ### Reset -/

/-- Where both bytes of the vector are plain memory, `reset()` goes to the word stored there. -/
theorem warmReset_plain {s : State} (hl : s.plainRead resetVector = true)
    (hh : s.plainRead (resetVector + 1) = true) :
    warmReset s = .ok (((s.setSp 0xFF).setP { s.p with i := true }).setPc
      (joinBytes (Mem.read s.mem (resetVector + 1)) (Mem.read s.mem resetVector))) := by
  rw [warmReset, read16, readPair_plain (s := (s.setSp 0xFF).setP { s.p with i := true }) hl hh]
  rfl

/-! ### The obligations of spec/10_state.md -/

/-- Settles O46: every step evolves the state, and a good state that evolves stays good. -/
theorem stepKeepsGoodState : Obligations.StepKeepsGoodState :=
  fun _ _ hs h => (step_evolves h).wf hs

/-- Settles O37: by the frame of the instruction's descriptor. -/
theorem unlistedFlagsUnchanged : Obligations.UnlistedFlagsUnchanged := by
  intro i d s t f hd h hf
  exact ((runsAs_of_descriptor hd s).frame h).1 f hf

/-- Settles O38: by the frame of the instruction's descriptor. -/
theorem unwrittenRegistersUnchanged : Obligations.UnwrittenRegistersUnchanged := by
  intro i d s t hd h
  exact ((runsAs_of_descriptor hd s).frame h).2

/-- Settles O43: the setup is among what every step keeps. -/
theorem stepKeepsSetup : Obligations.StepKeepsSetup := by
  intro s t h
  have e := step_evolves h
  exact ⟨e.cfg, e.pageModes, e.readHooks, e.writeHooks, e.breakpoints, e.cancelRequested, e.irqLine⟩

/-- Settles O45: the invariant evaluated at the state after reset. -/
theorem resetIsGood : Obligations.ResetIsGood := by
  unfold Obligations.ResetIsGood
  decide

/-- Settles O47: no hook of the default configuration covers the vector, and its bytes are the sentinel. -/
theorem resetAfterConstruction : Obligations.ResetAfterConstruction := by
  have vector : joinBytes sentinel sentinel = 0xCCCC := by decide
  have reset (r : InitRegs) : warmReset (construct Config.default [] [] [] r) =
      .ok { (construct Config.default [] [] [] r) with sp := 0xFF, pc := 0xCCCC, p := { r.p with i := true } } := by
    rw [← vector]
    exact warmReset_plain rfl rfl
  exact ⟨reset, ⟨0x00, 0x00, 0x00, 0xFF, 0xCCCC, State.reset.p⟩, reset _⟩

end Sys2Proof.Machine
end

section
/-! The memory bus and the backing array (spec/20_memory.md R61 to R73, R80). A scan passes the hooks that only
observe, as `runObservers` runs them; what a consuming hook, the page mode or the array then answers is said once
per case. -/

namespace Sys2Proof.Machine

section
variable {cfg : Config} {a : Word} {v w : Byte} {h : Hook} {pre hs : List Hook} {d : Devices} {s : State}

/-! ### Scans of the hooks -/

theorem onlyObserve_cons_iff :
    OnlyObserve (h :: hs) a ↔ (h.covers a = true → h.bypass = true) ∧ OnlyObserve hs a :=
  List.forall_mem_cons

/-- A read scan runs the observing hooks in front and goes on with the rest of the list (R62). -/
theorem scanRead_append (ho : OnlyObserve pre a) :
    scanRead cfg a (pre ++ hs) d = scanRead cfg a hs (runObservers cfg a none pre d) := by
  induction pre generalizing d with
  | nil => rfl
  | cons k ks ih =>
    obtain ⟨hk, hks⟩ := onlyObserve_cons_iff.1 ho
    by_cases hc : k.covers a = true
    · simp [scanRead, runObservers, hc, hk hc, ih hks]
    · simp [scanRead, runObservers, hc, ih hks]

/-- A write scan runs the observing hooks in front and goes on with the rest of the list (R64). -/
theorem scanWrite_append (ho : OnlyObserve pre a) :
    scanWrite cfg a v (pre ++ hs) d = scanWrite cfg a v hs (runObservers cfg a (some v) pre d) := by
  induction pre generalizing d with
  | nil => rfl
  | cons k ks ih =>
    obtain ⟨hk, hks⟩ := onlyObserve_cons_iff.1 ho
    by_cases hc : k.covers a = true
    · simp [scanWrite, runObservers, hc, hk hc, ih hks]
    · simp [scanWrite, runObservers, hc, ih hks]

theorem scanRead_onlyObserve (ho : OnlyObserve hs a) :
    scanRead cfg a hs d = .ok (none, runObservers cfg a none hs d) := by
  have e := scanRead_append (cfg := cfg) (hs := []) (d := d) ho
  rwa [List.append_nil] at e

theorem scanWrite_onlyObserve (ho : OnlyObserve hs a) :
    scanWrite cfg a v hs d = (false, runObservers cfg a (some v) hs d) := by
  have e := scanWrite_append (cfg := cfg) (v := v) (hs := []) (d := d) ho
  rwa [List.append_nil] at e

section
variable (hc : h.covers a = true) (hb : h.bypass = false)
include hc hb

theorem scanRead_consumed {d' : Devices} (hr : runCallback cfg h.callback a none d = (some w, d')) :
    scanRead cfg a (h :: hs) d = .ok (some w, d') := by
  simp [scanRead, hc, hb, hr]

theorem scanRead_noValue {d' : Devices} (hr : runCallback cfg h.callback a none d = (none, d')) :
    scanRead cfg a (h :: hs) d = .error (.readHookNoValue a) := by
  simp [scanRead, hc, hb, hr]

theorem scanWrite_consumed :
    scanWrite cfg a v (h :: hs) d = (true, (runCallback cfg h.callback a (some v) d).2) := by
  simp [scanWrite, hc, hb]

end

/-! ### What the bus makes of a scan -/

/-- A read past the hooks, by the page mode (R66). -/
theorem rawRead_eq (s : State) (a : Word) : rawRead s a = readByMode (s.pageMode a) (Mem.read s.mem a) := by
  cases hm : s.pageMode a <;> simp [rawRead, readByMode, hm]

/-- A write past the hooks, by the page mode (R66). -/
theorem rawWrite_eq (a : Word) (v : Byte) (s : State) :
    rawWrite a v s = s.setMem (if s.pageMode a = .readWrite then Mem.write s.mem a v else s.mem) := by
  cases hm : s.pageMode a <;> simp [rawWrite, hm]

theorem readByte_of_scan_value (hscan : scanRead s.cfg a s.readHooks s.dev = .ok (some w, d)) :
    readByte a s = .ok (w, s.setDev d) := by
  rw [readByte, hscan]
  rfl

theorem readByte_of_scan_none (hscan : scanRead s.cfg a s.readHooks s.dev = .ok (none, d)) :
    readByte a s = .ok (rawRead s a, s.setDev d) := by
  rw [readByte, hscan]
  rfl

theorem readByte_of_scan_error {e : Fault} (hscan : scanRead s.cfg a s.readHooks s.dev = .error e) :
    readByte a s = .error e := by
  rw [readByte, hscan]
  rfl

theorem writeByte_of_scan_consumed (hscan : scanWrite s.cfg a v s.writeHooks s.dev = (true, d)) :
    writeByte a v s = s.setDev d := by
  rw [writeByte, hscan]
  rfl

theorem writeByte_of_scan_passed (hscan : scanWrite s.cfg a v s.writeHooks s.dev = (false, d)) :
    writeByte a v s = rawWrite a v (s.setDev d) := by
  rw [writeByte, hscan]
  rfl

end

/-! ### Runs of bytes in memory -/

theorem storeBytes_ofNat_cons (m : List Host.Cell) (off : Nat) (v : Byte) (vs : List Byte) :
    storeBytes m (BitVec.ofNat 16 off) (v :: vs) =
      storeBytes (Mem.write m (BitVec.ofNat 16 off) v) (BitVec.ofNat 16 (off + 1)) vs := by
  rw [BitVec.ofNat_add]
  rfl

/-- The bytes outside the stored range are as they were. -/
theorem storeBytes_read_outside (bs : List Byte) {m : List Host.Cell} {off : Nat} {a : Word}
    (hfit : off + bs.length ≤ 65536) (ha : a.toNat < off ∨ off + bs.length ≤ a.toNat) :
    Mem.read (storeBytes m (BitVec.ofNat 16 off) bs) a = Mem.read m a := by
  induction bs generalizing m off with
  | nil => rfl
  | cons v vs ih =>
    rw [List.length_cons] at hfit ha
    have hne : a ≠ BitVec.ofNat 16 off := by
      rintro rfl
      rw [BitVec.toNat_ofNat, Nat.mod_eq_of_lt (by omega)] at ha
      omega
    rw [storeBytes_ofNat_cons, ih (by omega) (by omega), Mem.read_write_other m v hne]

/-- The bytes of the stored range are the ones given, in order. -/
theorem storeBytes_read_inside (bs : List Byte) {m : List Host.Cell} {off k : Nat} (hm : Mem.wf m = true)
    (hfit : off + bs.length ≤ 65536) (hk : k < bs.length) :
    bs[k]? = some (Mem.read (storeBytes m (BitVec.ofNat 16 off) bs) (BitVec.ofNat 16 (off + k))) := by
  induction bs generalizing m off k with
  | nil => cases hk
  | cons v vs ih =>
    rw [List.length_cons] at hfit hk
    rw [storeBytes_ofNat_cons]
    cases k with
    | zero =>
      have hlt : (BitVec.ofNat 16 off).toNat < off + 1 := Nat.lt_succ_of_le (Nat.mod_le _ _)
      rw [Nat.add_zero off, storeBytes_read_outside vs (by omega) (.inl hlt), Mem.read_write_same _ v hm,
        List.getElem?_cons_zero]
    | succ k =>
      rw [List.getElem?_cons_succ, Nat.add_comm k 1, ← Nat.add_assoc]
      exact ih (Mem.write_wf _ v hm) (by omega) (by omega)

theorem loadBinary_of_fits {bytes : List Byte} {offset length : Nat} (hl : length ≤ bytes.length)
    (hf : offset + length ≤ 65536) (s : State) :
    loadBinary (some bytes) offset length s =
      .ok (s.setMem (storeBytes s.mem (BitVec.ofNat 16 offset) (bytes.take length))) := by
  rw [loadBinary, if_neg (Nat.not_lt.2 hl), if_neg (Nat.not_lt.2 hf)]

/-! ### The obligations of spec/20_memory.md -/

/-- Settles O9: the scan passes the observers, then the consuming hook's result, or the page mode, decides. -/
theorem readHooksDecideInOrder : Obligations.ReadHooksDecideInOrder := by
  refine ⟨fun s a pre post h hs ho hc hb => ?consumed, fun s a ho => ?passed, fun s a => ⟨rfl, ?bypassed⟩⟩
  case consumed =>
    have scan := scanRead_append (cfg := s.cfg) (hs := h :: post) (d := s.dev) ho
    rw [← hs] at scan
    dsimp only
    rcases hr : runCallback s.cfg h.callback a none (runObservers s.cfg a none pre s.dev) with ⟨_ | w, d⟩
    · exact readByte_of_scan_error (scan.trans (scanRead_noValue hc hb hr))
    · exact readByte_of_scan_value (scan.trans (scanRead_consumed hc hb hr))
  case passed =>
    rw [← rawRead_eq]
    exact readByte_of_scan_none (scanRead_onlyObserve ho)
  case bypassed =>
    rw [← rawRead_eq]
    rfl

/-- Settles O10: the scan passes the observers, then the consuming hook takes the write, or the page mode decides. -/
theorem writeHooksDecideInOrder : Obligations.WriteHooksDecideInOrder := by
  refine ⟨fun s a v pre post h hs ho hc hb => ?consumed, fun s a v ho => ?passed, fun s a v => ⟨rfl, ?bypassed⟩⟩
  case consumed =>
    have scan := scanWrite_append (cfg := s.cfg) (v := v) (hs := h :: post) (d := s.dev) ho
    rw [← hs] at scan
    exact writeByte_of_scan_consumed (scan.trans (scanWrite_consumed hc hb))
  case passed => exact (writeByte_of_scan_passed (scanWrite_onlyObserve ho)).trans (rawWrite_eq a v _)
  case bypassed => exact rawWrite_eq a v s

/-- Settles O11: on a plain byte the bus reads and writes the array, which is coherent. -/
theorem readAfterWriteIsCoherent : Obligations.ReadAfterWriteIsCoherent := by
  intro s a v hm hr hw
  rw [writeByte_plain v hw]
  have hr' : (s.setMem (Mem.write s.mem a v)).plainRead a = true := hr
  refine ⟨?_, fun b hb => Mem.read_write_other s.mem v hb, rfl⟩
  rw [readByte_plain hr', State.setMem_mem, Mem.read_write_same a v hm]

/-- Settles O42: idle devices are among what every instruction keeps. -/
theorem unhookedLeavesDevices : Obligations.UnhookedLeavesDevices :=
  fun _ _ _ hr hw h => (exec_evolves h).idle hr hw

/-- Settles O48: a load that fits stores the first `length` bytes of the file as one run. -/
theorem loadBinaryPlacesBytes : Obligations.LoadBinaryPlacesBytes := by
  refine fun bytes offset length s => ⟨rfl, fun hs => if_pos hs, fun hl hp => ?outOfRange, fun hl hf hm => ?fits⟩
  case outOfRange => rw [loadBinary, if_neg (Nat.not_lt.2 hl), if_pos hp]
  case fits =>
    have hn : (bytes.take length).length = length := List.length_take_of_le hl
    refine ⟨_, loadBinary_of_fits hl hf s, storeBytes_wf _ _ hm, fun k hk => ?_, fun a ha => ?_⟩
    · rw [← List.getElem?_take_of_lt hk]
      exact storeBytes_read_inside _ hm (by rwa [hn]) (by rwa [hn])
    · exact storeBytes_read_outside _ (by rwa [hn]) (by rwa [hn])

end Sys2Proof.Machine
end

section
/-! The encoding of instructions (spec/30_encoding.md R100 to R107). `Form.Operands` says which operand bytes a
form reads for which instruction; the rows of the opcode table say which form follows which opcode byte. The
decoder and the encoder both agree with these two, and so with each other. -/

namespace Sys2Proof

/-- The form makes the instruction from exactly these operand bytes (R100, R101). -/
inductive Form.Operands : Form → Instr → List Byte → Prop
  | f1 (i : Instr) : Operands (.f1 i) i []
  | f2 (mk : Byte → Instr) (b : Byte) : Operands (.f2 mk) (mk b) [b]
  | f3 (mk : Word → Instr) (w : Word) : Operands (.f3 mk) (mk w) [loByte w, hiByte w]

section
variable {f : Form} {i : Instr} {op : Byte} {bs ops rest : List Byte} {r : Row}

/-! ### The decoder -/

theorem decodeForm_of_operands (h : f.Operands i ops) (rest : List Byte) :
    decodeForm f (ops ++ rest) = .instr i rest := by
  cases h with
  | f1 | f2 => rfl
  | f3 mk w => simp [decodeForm]

theorem operands_of_decodeForm (h : decodeForm f bs = .instr i rest) :
    ∃ ops, f.Operands i ops ∧ bs = ops ++ rest := by
  cases f with
  | f1 j => cases h; exact ⟨_, .f1 i, rfl⟩
  | f2 mk =>
    match bs with
    | [] => cases h
    | b1 :: _ => cases h; exact ⟨_, .f2 mk b1, rfl⟩
  | f3 mk =>
    match bs with
    | [] | [_] => cases h
    | b1 :: b2 :: _ => cases h; exact ⟨_, .f3 mk (joinBytes b2 b1), by simp⟩

theorem decodeForm_ne_absent : decodeForm f bs ≠ .absent op := by
  cases f with
  | f1 => nofun
  | f2 =>
    match bs with
    | [] | _ :: _ => nofun
  | f3 =>
    match bs with
    | [] | [_] | _ :: _ :: _ => nofun

theorem decode_cons_of_lookup (h : lookupOpcode op = some r) (bs : List Byte) :
    decode (op :: bs) = decodeForm r.form bs := by
  rw [decode, h]

theorem decode_cons_absent_iff : decode (op :: bs) = .absent op ↔ lookupOpcode op = none := by
  cases h : lookupOpcode op with
  | none => simp [decode, h]
  | some r => simp [decode_cons_of_lookup h, decodeForm_ne_absent]

/-- Bytes that decode to an instruction are an opcode byte and the operand bytes of its row's form. -/
theorem row_of_decode (h : decode bs = .instr i rest) :
    ∃ op r ops, lookupOpcode op = some r ∧ r.form.Operands i ops ∧ bs = op :: ops ++ rest := by
  match bs with
  | [] => cases h
  | op :: tail =>
    cases hr : lookupOpcode op with
    | none => rw [decode, hr] at h; cases h
    | some r =>
      rw [decode_cons_of_lookup hr] at h
      obtain ⟨ops, ho, rfl⟩ := operands_of_decodeForm h
      exact ⟨op, r, ops, hr, ho, rfl⟩

/-! ### The opcode table -/

/-- The present opcodes stand in the table in ascending order, and the absent ones are all the other byte values
(R103, R106). As numbers they are cheap to compare in the kernel. -/
theorem range_partition_opcodes :
    (List.range 256).partition (opcodeTable.map (·.opcode.toNat)).contains =
      (opcodeTable.map (·.opcode.toNat), Machine.absentOpcodes.map (·.toNat)) := by
  decide +kernel

theorem opcodes_nodup : (opcodeTable.map (·.opcode)).Nodup := by
  have present := (Prod.mk.inj ((List.partition_eq_filter_filter ..).symm.trans range_partition_opcodes)).1
  have numbers : (opcodeTable.map (·.opcode.toNat)).Nodup := present ▸ List.nodup_range.filter _
  exact List.pairwise_map.2 ((List.pairwise_map.1 numbers).imp fun hne he => hne (congrArg BitVec.toNat he))

theorem mem_absentOpcodes_iff : op ∈ Machine.absentOpcodes ↔ ∀ r ∈ opcodeTable, r.opcode ≠ op := by
  have absent := (Prod.mk.inj ((List.partition_eq_filter_filter ..).symm.trans range_partition_opcodes)).2
  have number : op ∈ Machine.absentOpcodes ↔ op.toNat ∈ Machine.absentOpcodes.map (·.toNat) := by
    simp only [List.mem_map, BitVec.toNat_inj, exists_eq_right]
  rw [number, ← absent]
  simp only [List.mem_filter, List.mem_range, op.isLt, Function.comp_apply, List.contains_eq_mem, List.mem_map,
    BitVec.toNat_inj, Bool.not_eq_eq_eq_not, Bool.not_true, decide_eq_false_iff_not, not_exists, not_and, true_and,
    ne_eq]

theorem lookupOpcode_eq_none_iff : lookupOpcode op = none ↔ op ∈ Machine.absentOpcodes := by
  simp only [lookupOpcode, List.find?_eq_none, beq_iff_eq, mem_absentOpcodes_iff, ne_eq]

/-- Among rows of distinct opcodes, a search by an opcode finds the row that has it. -/
theorem find?_opcode_of_nodup {rows : List Row} (hn : (rows.map (·.opcode)).Nodup) (hr : r ∈ rows) :
    rows.find? (fun q => q.opcode == r.opcode) = some r := by
  induction rows with
  | nil => cases hr
  | cons q rows ih =>
    obtain ⟨hq, hn⟩ := List.nodup_cons.1 hn
    obtain rfl | hr := List.mem_cons.1 hr
    · exact List.find?_cons_of_pos (beq_self_eq_true _)
    · have hne : q.opcode ≠ r.opcode := fun he => hq (List.mem_map.2 ⟨r, hr, he.symm⟩)
      have skip : ¬ (q.opcode == r.opcode) = true := mt eq_of_beq hne
      rw [List.find?_cons_of_neg (p := fun q : Row => q.opcode == r.opcode) skip, ih hn hr]

theorem lookupOpcode_eq_some_iff : lookupOpcode op = some r ↔ r ∈ opcodeTable ∧ r.opcode = op := by
  constructor
  · exact fun h => ⟨List.mem_of_find?_eq_some h, eq_of_beq (List.find?_some h :)⟩
  · rintro ⟨hr, rfl⟩
    exact find?_opcode_of_nodup opcodes_nodup hr

theorem controlsPcOk_of_mem_opcodeTable : ∀ r ∈ opcodeTable, r.controlsPcOk = true :=
  List.all_eq_true.1 (by decide)

/-! ### The encoder -/

/-- The encoder writes the opcode byte, then the operand bytes from which the form makes the instruction. -/
def Form.Encodes (op : Byte) (f : Form) : Prop := ∀ i ops, f.Operands i ops → encode i = op :: ops

theorem encodes_f1_iff : (Form.f1 i).Encodes op ↔ encode i = [op] :=
  ⟨fun h => h _ _ (.f1 i), by rintro h _ _ ⟨⟩; exact h⟩

theorem encodes_f2_iff {mk : Byte → Instr} : (Form.f2 mk).Encodes op ↔ ∀ b, encode (mk b) = [op, b] :=
  ⟨fun h b => h _ _ (.f2 mk b), by rintro h _ _ ⟨⟩; exact h _⟩

theorem encodes_f3_iff {mk : Word → Instr} :
    (Form.f3 mk).Encodes op ↔ ∀ w, encode (mk w) = [op, loByte w, hiByte w] :=
  ⟨fun h w => h _ _ (.f3 mk w), by rintro h _ _ ⟨⟩; exact h _⟩

/-- The encoder agrees with every row of the table. -/
theorem encodes_of_mem_opcodeTable : ∀ r ∈ opcodeTable, r.form.Encodes r.opcode := by
  simp only [opcodeTable, opcodeRow0, opcodeRow1, opcodeRow2, opcodeRow3, opcodeRow4, opcodeRow5, opcodeRow6,
    opcodeRow7, opcodeRow8, opcodeRow9, opcodeRowA, opcodeRowB, opcodeRowC, opcodeRowD, opcodeRowE, opcodeRowF,
    List.forall_mem_append, List.forall_mem_cons, encodes_f1_iff, encodes_f2_iff, encodes_f3_iff,
    List.not_mem_nil, false_implies, implies_true, and_true]
  and_intros
  all_goals intros; rfl

/-- The row of each instruction stands at the place of its constructor. -/
theorem row_at_ctorIdx (i : Instr) : ∃ r ops, opcodeTable[i.ctorIdx]? = some r ∧ r.form.Operands i ops := by
  cases i <;> exact ⟨_, _, rfl, by constructor⟩

/-- Every instruction is made by a row of the table, and encoded as that row's opcode and operand bytes. -/
theorem exists_row_of_instr (i : Instr) :
    ∃ r ops, lookupOpcode r.opcode = some r ∧ r.form.Operands i ops ∧ encode i = r.opcode :: ops := by
  obtain ⟨r, ops, hr, ho⟩ := row_at_ctorIdx i
  have hmem := List.mem_of_getElem? hr
  exact ⟨r, ops, lookupOpcode_eq_some_iff.2 ⟨hmem, rfl⟩, ho, encodes_of_mem_opcodeTable r hmem i ops ho⟩

end
end Sys2Proof

namespace Sys2Proof.Machine

theorem fetch_absent {s u : State} {op : Byte} (ho : lookupOpcode op = none)
    (h : readByte s.pc s = .ok (op, u)) : fetch s = .error (.invalidOpcode s.pc u) := by
  simp only [fetch, h, bind, Except.bind, ho]

/-! ### The obligations of spec/30_encoding.md -/

/-- Settles O1: the opcode byte finds the instruction's row, whose form reads the operand bytes back. -/
theorem decodeInvertsEncode : Obligations.DecodeInvertsEncode := by
  intro i rest
  obtain ⟨r, ops, hr, ho, he⟩ := exists_row_of_instr i
  rw [he, List.cons_append, decode_cons_of_lookup hr, decodeForm_of_operands ho]

/-- Settles O2: the bytes are the opcode byte and the operand bytes of a row, and the encoder writes these. -/
theorem encodeInvertsDecode : Obligations.EncodeInvertsDecode := by
  intro bs rest i h
  obtain ⟨op, r, ops, hr, ho, rfl⟩ := row_of_decode h
  obtain ⟨hmem, rfl⟩ := lookupOpcode_eq_some_iff.1 hr
  rw [encodes_of_mem_opcodeTable r hmem i ops ho]

/-- Settles O3: the absent bytes are those without a row, and a fetch that finds no row stops there. -/
theorem absentOpcodesAreInvalid : Obligations.AbsentOpcodesAreInvalid := by
  refine ⟨fun op rest => decode_cons_absent_iff.trans lookupOpcode_eq_none_iff, fun s u op hi ho h => ⟨?_, ?_⟩⟩
  · exact step_fault_of_fetch hi (fetch_absent (lookupOpcode_eq_none_iff.2 ho) h)
  · obtain ⟨d, rfl, -⟩ := readByte_frame h
    exact ⟨d, rfl⟩

/-- Settles O4: each word is the encoding of the instruction the map gives for it. -/
theorem specWordsDecode : Obligations.SpecWordsDecode :=
  ⟨decodeInvertsEncode (.ldaImm 0x41) [], decodeInvertsEncode (.staAbs 0x1234) [], decodeInvertsEncode .tax [],
    decodeInvertsEncode .php [], decodeInvertsEncode (.adcIzy 0x20) [], decodeInvertsEncode (.eorIzx 0x20) [],
    decodeInvertsEncode (.cmpAbsy 0x10FF) [], decodeInvertsEncode (.incZpx 0x20) [], decodeInvertsEncode .rorAcc [],
    decodeInvertsEncode (.jmpInd 0x1234) [], decodeInvertsEncode (.bne 0xFE) [], decodeInvertsEncode .sed []⟩

/-- Settles O5: every instruction has a row of the table, and every row of it agrees with R104. -/
theorem opcodeTableRows : Obligations.OpcodeTableRows := by
  refine ⟨rfl, opcodes_nodup, fun i => ?_⟩
  obtain ⟨r, ops, hr, -, he⟩ := exists_row_of_instr i
  have ok := controlsPcOk_of_mem_opcodeTable r (lookupOpcode_eq_some_iff.1 hr).1
  have hi : i.opcode = r.opcode := by rw [Instr.opcode, he, List.headD_cons]
  refine ⟨r.desc, by rw [Instr.descriptor, hi, hr, Option.map_some], ?_⟩
  rw [eq_of_beq ok, decide_eq_true_iff]

end Sys2Proof.Machine
end

section
/-! Addressing, the stack, the fetch and the batch loop, and what an instruction does to memory and to the cycle
count (spec/35_execution.md R120 to R162). The facts about every instruction are again case splits over `RunsAs`. -/

namespace Sys2Proof.Machine

section
variable {s t u : State} {d : Descriptor} {mn : Mnemonic}

/-! ### Addresses as arithmetic -/

theorem joinBytes_eq_ofNat (hi lo : Byte) : joinBytes hi lo = BitVec.ofNat 16 (hi.toNat * 256 + lo.toNat) := by
  rw [← joinBytes_toNat, BitVec.ofNat_toNat, BitVec.setWidth_eq]

theorem pageCrossed_eq (base ea : Word) : pageCrossed base ea = decide (base.toNat / 256 ≠ ea.toNat / 256) := by
  rw [pageCrossed, Bool.eq_iff_iff, bne_iff_ne, decide_eq_true_iff, ← hiByte_toNat, ← hiByte_toNat, ne_eq, ne_eq,
    BitVec.toNat_inj]

/-- An indexed address modulo 65536, and whether it lies in another page than its base (R129). -/
theorem indexed_eq (w : Word) (i : Byte) :
    indexed w i = (BitVec.ofNat 16 ((w.toNat + i.toNat) % 65536),
      decide (w.toNat / 256 ≠ (w.toNat + i.toNat) % 65536 / 256)) := by
  have ea : (w + zext16 i).toNat = (w.toNat + i.toNat) % 65536 := by rw [BitVec.toNat_add, zext16_toNat]
  rw [indexed, pageCrossed_eq, ← ea, BitVec.ofNat_toNat, BitVec.setWidth_eq]

/-- A zero-page pointer is its two bytes, low byte first, the second in the zero page too (R130, R131). -/
theorem zpPointer_of_reads {b lo hi : Byte} {s1 s2 : State}
    (h1 : readByte (BitVec.ofNat 16 b.toNat) s = .ok (lo, s1))
    (h2 : readByte (BitVec.ofNat 16 ((b.toNat + 1) % 256)) s1 = .ok (hi, s2)) :
    zpPointer b s = .ok (joinBytes hi lo, s2) := by
  have succ : zext16 (b + 1) = BitVec.ofNat 16 ((b.toNat + 1) % 256) := zext16_add b 1
  simp only [zpPointer, readPair, zext16_eq_ofNat b, succ, h1, h2, bind, Except.bind]

theorem effAddr_izx_of_pointer {b : Byte} {p : Word} (h : zpPointer (b + s.x) s = .ok (p, u)) :
    effAddr (.izx b) s = .ok ((p, false), u) := by
  simp only [effAddr, h, bind, Except.bind]

theorem effAddr_izy_of_pointer {b : Byte} {p : Word} (h : zpPointer b s = .ok (p, u)) :
    effAddr (.izy b) s = .ok (indexed p s.y, u) := by
  obtain ⟨dv, rfl, -⟩ := readPair_frame h
  simp only [effAddr, h, bind, Except.bind]

theorem stackAddr_eq_ofNat (sp : Byte) : stackAddr sp = BitVec.ofNat 16 (0x0100 + sp.toNat) := by
  rw [stackAddr, zext16_eq_ofNat, BitVec.ofNat_add]
  rfl

theorem pull16_of_pulls {s1 s2 : State} {lo hi : Byte} (h1 : pull s = .ok (lo, s1)) (h2 : pull s1 = .ok (hi, s2)) :
    pull16 s = .ok (joinBytes hi lo, s2) := by
  simp only [pull16, h1, h2, bind, Except.bind]

/-! ### The fetch -/

/-- Bus reads of successive addresses from `a`, each in the state the one before left, give the bytes and end in
state `u`. -/
def ReadsBytes (a : Word) : List Byte → State → State → Prop
  | [], s, u => u = s
  | b :: bs, s, u => ∃ s1, readByte a s = .ok (b, s1) ∧ ReadsBytes (a + 1) bs s1 u

theorem fetchOperands_of_readsBytes {pc0 : Word} {f : Form} {i : Instr} {ops : List Byte} (ho : f.Operands i ops)
    (h : ReadsBytes (pc0 + 1) ops s u) : fetchOperands pc0 f s = .ok (i, u) := by
  cases ho with
  | f1 i =>
    obtain rfl := h
    rfl
  | f2 mk b =>
    obtain ⟨s1, h1, rfl⟩ := h
    simp only [fetchOperands, h1, bind, Except.bind]
  | f3 mk w =>
    obtain ⟨s1, h1, s2, h2, rfl⟩ := h
    rw [BitVec.add_assoc] at h2
    simp only [fetchOperands, h1, show pc0 + 2 = pc0 + (1 + 1) from rfl, h2, bind, Except.bind, joinBytes_hi_lo]

/-- A fetch reads the bytes of the instruction in order (R121). -/
theorem fetch_of_readsBytes {i : Instr} (h : ReadsBytes s.pc (encode i) s u) : fetch s = .ok (i, u) := by
  obtain ⟨r, ops, hr, ho, he⟩ := exists_row_of_instr i
  rw [he] at h
  obtain ⟨s1, h1, hops⟩ := h
  exact (fetch_of_lookup h1 hr).trans (fetchOperands_of_readsBytes ho hops)

theorem fetch_of_decode {bs : List Byte} {i : Instr} (hd : decode bs = .instr i []) (h : ReadsBytes s.pc bs s u) :
    fetch s = .ok (i, u) := by
  rw [encodeInvertsDecode bs [] i hd, List.append_nil] at h
  exact fetch_of_readsBytes h

/-- Where the addresses are plain memory that holds the bytes, reading them changes nothing. -/
theorem readsBytes_plain {bs : List Byte} {a : Word}
    (hp : ∀ k, k < bs.length → s.plainRead (a + BitVec.ofNat 16 k) = true)
    (hm : ∀ k, k < bs.length → bs[k]? = some (Mem.read s.mem (a + BitVec.ofNat 16 k))) : ReadsBytes a bs s s := by
  induction bs generalizing a with
  | nil => rfl
  | cons b bs ih =>
    have next (k : Nat) : a + 1 + BitVec.ofNat 16 k = a + BitVec.ofNat 16 (k + 1) := by
      rw [BitVec.add_assoc, Nat.add_comm, BitVec.ofNat_add]
      rfl
    have hb : b = Mem.read s.mem a := by simpa using hm 0 (Nat.zero_lt_succ _)
    have ha : s.plainRead a = true := by simpa using hp 0 (Nat.zero_lt_succ _)
    refine ⟨s, by rw [hb, readByte_plain ha], ih (fun k hk => ?_) (fun k hk => ?_)⟩
    · rw [next]
      exact hp (k + 1) (Nat.succ_lt_succ hk)
    · rw [next]
      exact hm (k + 1) (Nat.succ_lt_succ hk)

/-! ### Memory -/

theorem writeAlu_mem (r : AluResult) (s : State) : (writeAlu r s).mem = s.mem := by
  obtain ⟨n, v, z, k, h⟩ := writeAlu_frame r s
  rw [h]
  rfl

theorem ReadEffect.mem_eq {f : Byte → State → State} (h : ReadEffect mn f) (m : Byte) (s : State) :
    (f m s).mem = s.mem := by
  cases h with
  | lda | ldx | ldy | and | ora | eor | bit | cmp | cpx | cpy => rfl
  | adc | sbc => exact writeAlu_mem _ s

theorem StoredValue.writesMem {v : State → Byte} (h : StoredValue mn v) (hd : d.mnemonic = mn) :
    writesMem d = true := by
  cases h with
  | sta | stx | sty => simp [Machine.writesMem, hd]

theorem MemFn.writesMem {fn : RmwFn} (h : MemFn mn fn) (hd : d.mnemonic = mn) (hm : d.mode ≠ .acc) :
    writesMem d = true := by
  cases h with
  | inc | dec => simp [Machine.writesMem, hd, hm]
  | shift hs =>
    cases hs with
    | asl | lsr | rol | ror => simp [Machine.writesMem, hd, hm]

/-- Of the one-byte instructions that cannot fault, only the pushes change memory. -/
theorem ImpliedEffect.mem_eq_or_writesMem {f : State → State} (h : ImpliedEffect mn f) (hd : d.mnemonic = mn)
    (s : State) : (f s).mem = s.mem ∨ writesMem d = true := by
  cases h with
  | tax | tay | txa | tya | tsx | txs | inx | iny | dex | dey | clc | sec | cli | sei | cld | sed | clv | nop =>
    exact .inl rfl
  | pha | php => exact .inr (by simp [writesMem, hd])

/-- An instruction whose descriptor does not mark memory as written leaves all of it. -/
theorem RunsAs.mem_eq {o : Host.Outcome State Fault Refusal} (h : RunsAs d s o) (ho : o = .next t)
    (hw : writesMem d = false) : t.mem = s.mem := by
  have unmarked (hm : writesMem d = true) : t.mem = s.mem := absurd (hw.symm.trans hm) Bool.false_ne_true
  cases h with
  | read he =>
    obtain ⟨m, crossed, dv, -, rfl⟩ := readClass_frame ho
    exact he.mem_eq m (s.setDev dv)
  | write hv => exact unmarked (hv.writesMem rfl)
  | rmwAcc => rw [rmwClass_acc_frame ho]; rfl
  | rmwMem hf hm => exact unmarked (hf.writesMem rfl hm)
  | implied he =>
    obtain hk | hm := he.mem_eq_or_writesMem rfl s
    · rw [implied_frame ho]
      exact hk
    · exact unmarked hm
  | branch => obtain ⟨pc, rfl⟩ := branch_frame ho; rfl
  | pla => obtain ⟨v, dv, rfl⟩ := execPla_frame ho; rfl
  | plp => obtain ⟨v, dv, rfl⟩ := execPlp_frame ho; rfl
  | jmpAbs => cases ho; rfl
  | jmpInd => obtain ⟨pc, dv, rfl⟩ := execJmpInd_frame ho; rfl
  | rts => obtain ⟨pc, dv, rfl⟩ := execRts_frame ho; rfl
  | rti => obtain ⟨pc, dv, st, rfl⟩ := execRti_frame ho; rfl
  | jsr hm => exact unmarked (by simp [writesMem, hm])
  | brk hm => exact unmarked (by simp [writesMem, hm])

/-- Every byte but the one at `ea` is the same in `t` as in `s`. -/
def SameMemBut (ea : Word) (s t : State) : Prop := ∀ a, a ≠ ea → Mem.read t.mem a = Mem.read s.mem a

theorem RunsWriteClass.sameMemBut {forms : Byte → Word → List WriteForm} {val : State → Byte}
    (h : RunsWriteClass forms val) {b : Byte} {w : Word} :
    ∀ f ∈ forms b w, ∀ (s t u : State) (ea : Word) (crossed : Bool), effAddr f.operand s = .ok ((ea, crossed), u) →
      exec f.instr s = .next t → SameMemBut ea s t := by
  intro f hf s t u ea crossed he hx
  rw [h b w f hf] at hx
  obtain ⟨ea', crossed', u', dv, m, he', rfl, same⟩ := writeClass_frame hx
  cases he.symm.trans he'
  exact same

theorem RunsRmwClass.sameMemBut {forms : Byte → Word → List RmwForm} {fn : RmwFn} (h : RunsRmwClass forms fn)
    {b : Byte} {w : Word} :
    ∀ f ∈ forms b w, ∀ (m : MemMode), f.operand = .mem m → ∀ (s t u : State) (ea : Word) (crossed : Bool),
      effAddr m s = .ok ((ea, crossed), u) → exec f.instr s = .next t → SameMemBut ea s t := by
  intro f hf m hm s t u ea crossed he hx
  rw [h b w f hf, hm] at hx
  obtain ⟨ea', crossed', u', v, dv, m', he', rfl, same⟩ := rmwClass_mem_frame hx
  cases he.symm.trans he'
  exact same

/-! ### Cycles -/

theorem penaltyCycles_le (pen crossed : Bool) : penaltyCycles pen crossed ≤ penaltyCycles pen true := by
  cases crossed with
  | false => simp [penaltyCycles]
  | true => exact Nat.le_refl _

theorem branchPenalty_le (pc0 : Word) (b : Byte) (taken : Bool) : branchPenalty pc0 b taken ≤ 2 := by
  simp only [branchPenalty]
  split
  · split <;> decide
  · decide

/-- Base cycles of at least 2, and of at most 7 with the page penalty (R150, R151). -/
def cyclesOk (d : Descriptor) : Bool :=
  decide (2 ≤ d.cycles) && decide (d.cycles + penaltyCycles d.pagePenalty true ≤ 7)

theorem cyclesOk_iff : cyclesOk d = true ↔ 2 ≤ d.cycles ∧ d.cycles + penaltyCycles d.pagePenalty true ≤ 7 := by
  rw [cyclesOk, Bool.and_eq_true, decide_eq_true_iff, decide_eq_true_iff]

theorem cyclesOk_of_mem_opcodeTable : ∀ r ∈ opcodeTable, cyclesOk r.desc = true :=
  List.all_eq_true.1 (by decide)

theorem cyclesOk_of_descriptor {i : Instr} (h : i.descriptor = some d) : cyclesOk d = true := by
  obtain ⟨r, hr, rfl⟩ := Option.map_eq_some_iff.1 h
  exact cyclesOk_of_mem_opcodeTable r (lookupOpcode_eq_some_iff.1 hr).1

theorem writeAlu_totalCycles (r : AluResult) (s : State) : (writeAlu r s).totalCycles = s.totalCycles := by
  obtain ⟨n, v, z, k, h⟩ := writeAlu_frame r s
  rw [h]
  rfl

theorem push_totalCycles (v : Byte) (s : State) : (push v s).totalCycles = s.totalCycles := by
  obtain ⟨dv, m, h, -⟩ := push_frame v s
  rw [h]
  rfl

theorem ReadEffect.totalCycles_eq {f : Byte → State → State} (h : ReadEffect mn f) (m : Byte) (s : State) :
    (f m s).totalCycles = s.totalCycles := by
  cases h with
  | lda | ldx | ldy | and | ora | eor | bit | cmp | cpx | cpy => rfl
  | adc | sbc => exact writeAlu_totalCycles _ s

theorem ImpliedEffect.totalCycles_eq {f : State → State} (h : ImpliedEffect mn f) (s : State) :
    (f s).totalCycles = s.totalCycles := by
  cases h with
  | tax | tay | txa | tya | tsx | txs | inx | iny | dex | dey | clc | sec | cli | sei | cld | sed | clv | nop => rfl
  | pha | php => exact push_totalCycles _ s

/-- `t` has counted 2 to 7 cycles more than `s`. -/
def CostsTwoToSeven (s t : State) : Prop :=
  s.totalCycles + 2 ≤ t.totalCycles ∧ t.totalCycles ≤ s.totalCycles + 7

theorem costsTwoToSeven_of_cost {cost : Nat} (h : t.totalCycles = s.totalCycles + cost) (hl : 2 ≤ cost)
    (hu : cost ≤ 7) : CostsTwoToSeven s t := by
  unfold CostsTwoToSeven
  omega

theorem RunsAs.costsTwoToSeven {o : Host.Outcome State Fault Refusal} (h : RunsAs d s o) (ho : o = .next t)
    (hd : cyclesOk d = true) : CostsTwoToSeven s t := by
  obtain ⟨low, withPenalty⟩ := cyclesOk_iff.1 hd
  have high : d.cycles ≤ 7 := Nat.le_trans (Nat.le_add_right _ _) withPenalty
  cases h with
  | read he =>
    obtain ⟨m, crossed, dv, -, rfl⟩ := readClass_frame ho
    have penalty := penaltyCycles_le d.pagePenalty crossed
    refine costsTwoToSeven_of_cost (cost := d.cycles + penaltyCycles d.pagePenalty crossed) ?_ (by omega) (by omega)
    rw [complete_totalCycles, he.totalCycles_eq]
    rfl
  | write =>
    obtain ⟨ea, crossed, u, dv, m, -, rfl, -⟩ := writeClass_frame ho
    exact costsTwoToSeven_of_cost rfl low high
  | rmwAcc =>
    rw [rmwClass_acc_frame ho]
    exact costsTwoToSeven_of_cost rfl low high
  | rmwMem =>
    obtain ⟨ea, crossed, u, v, dv, m, -, rfl, -⟩ := rmwClass_mem_frame ho
    exact costsTwoToSeven_of_cost rfl low high
  | implied he =>
    rw [implied_frame ho]
    exact costsTwoToSeven_of_cost (congrArg (· + d.cycles) (he.totalCycles_eq s)) low high
  | @branch taken b =>
    obtain ⟨pc, rfl⟩ := branch_frame ho
    have penalty := branchPenalty_le s.pc b taken
    exact costsTwoToSeven_of_cost rfl (Nat.le_add_right _ _) (by omega)
  | pla => obtain ⟨v, dv, rfl⟩ := execPla_frame ho; exact costsTwoToSeven_of_cost rfl (by decide) (by decide)
  | plp => obtain ⟨v, dv, rfl⟩ := execPlp_frame ho; exact costsTwoToSeven_of_cost rfl (by decide) (by decide)
  | jmpAbs => cases ho; exact costsTwoToSeven_of_cost rfl (by decide) (by decide)
  | jmpInd => obtain ⟨pc, dv, rfl⟩ := execJmpInd_frame ho; exact costsTwoToSeven_of_cost rfl (by decide) (by decide)
  | jsr => obtain ⟨dv, m, rfl, -⟩ := execJsr_frame ho; exact costsTwoToSeven_of_cost rfl (by decide) (by decide)
  | rts => obtain ⟨pc, dv, rfl⟩ := execRts_frame ho; exact costsTwoToSeven_of_cost rfl (by decide) (by decide)
  | rti => obtain ⟨pc, dv, st, rfl⟩ := execRti_frame ho; exact costsTwoToSeven_of_cost rfl (by decide) (by decide)
  | brk => obtain ⟨pc, dv, m, rfl, -⟩ := execBrk_frame ho; exact costsTwoToSeven_of_cost rfl (by decide) (by decide)

theorem exec_costsTwoToSeven {i : Instr} (h : exec i s = .next t) : CostsTwoToSeven s t := by
  obtain ⟨d, hd, hr⟩ := exec_runsAs i s
  exact hr.costsTwoToSeven h (cyclesOk_of_descriptor hd)

theorem takeIrq_costsTwoToSeven (h : takeIrq s = .next t) : CostsTwoToSeven s t := by
  obtain ⟨⟨w, s1⟩, h1, h⟩ := bind_ok (outcome_next h)
  cases h
  obtain ⟨dv, m, rfl, -⟩ := enterTrap_frame h1
  exact costsTwoToSeven_of_cost rfl (by decide) (by decide)

theorem step_of_fetch {i : Instr} (hi : irqPending s = false) (h : fetch s = .ok (i, u)) : step s = exec i u := by
  simp only [step, hi, Bool.false_eq_true, if_false, h]

/-- After a step the tests of the batch loop are those of the new state, with the step's cost counted (R161). -/
theorem batchIteration_of_next {budget spent : Nat} (hc : s.cancelRequested = false) (h : step s = .next t) :
    batchIteration budget spent s = afterStep budget (spent + stepCost s t) t := by
  simp only [batchIteration, hc, Bool.false_eq_true, if_false, h]

end

/-! ### The obligations of spec/35_execution.md -/

/-- Settles O12: each mode's address arithmetic, and the bus reads of the indirect modes as they were made. -/
theorem addressingModesResolve : Obligations.AddressingModesResolve := by
  intro s b w
  refine ⟨by rw [← zext16_eq_ofNat]; rfl, by rw [← zext16_add]; rfl, by rw [← zext16_add]; rfl, rfl,
    by rw [effAddr, indexed_eq], by rw [effAddr, indexed_eq], fun lo hi s1 s2 => ?izx, fun lo hi s1 s2 h1 h2 => ?izy,
    rfl, fun m ea crossed v s1 s2 h1 h2 => ?operand⟩
  case izx =>
    intro p h1 h2
    have pointer : p = (b + s.x).toNat := (BitVec.toNat_add b s.x).symm
    rw [pointer] at h1 h2
    rw [effAddr_izx_of_pointer (zpPointer_of_reads h1 h2), joinBytes_eq_ofNat]
  case izy => rw [effAddr_izy_of_pointer (zpPointer_of_reads h1 h2), indexed_eq, joinBytes_toNat]
  case operand => simp only [readOperand, h1, h2, bind, Except.bind]

/-- Settles O39: by the descriptor, which marks every instruction that stores or pushes. -/
theorem nonStoringLeavesMemory : Obligations.NonStoringLeavesMemory := by
  intro i d s t hd h hw a
  rw [(runsAs_of_descriptor hd s).mem_eq h hw]

/-- Settles O40: each form runs as its access class, which writes at its effective address alone. -/
theorem storesTouchOneByte : Obligations.StoresTouchOneByte := by
  refine ⟨fun b w => ?_, fun b w => ?_⟩
  · simp only [List.forall_mem_append, and_assoc]
    exact ⟨staForms_writeClass.sameMemBut, stxForms_writeClass.sameMemBut, styForms_writeClass.sameMemBut⟩
  · simp only [List.forall_mem_append, and_assoc]
    exact ⟨incForms_rmwClass.sameMemBut, decForms_rmwClass.sameMemBut, aslForms_rmwClass.sameMemBut,
      lsrForms_rmwClass.sameMemBut, rolForms_rmwClass.sameMemBut, rorForms_rmwClass.sameMemBut⟩

/-- Settles O41: the stack slots are those of the instruction's frame. -/
theorem pushesTouchStackSlots : Obligations.PushesTouchStackSlots := by
  refine ⟨fun i s t hi h => ?_, fun w s t h => ?_, fun s t h => ?_⟩
  · obtain rfl | rfl := hi
    · obtain ⟨dv, m, rfl, same⟩ := execPha_frame h
      exact same
    · obtain ⟨dv, m, rfl, same⟩ := execPhp_frame h
      exact same
  · obtain ⟨dv, m, rfl, same⟩ := execJsr_frame h
    exact same
  · obtain ⟨pc, dv, m, rfl, same⟩ := execBrk_frame h
    have third : s.sp - 1 - 1 = s.sp - 2 := by bv_omega
    rwa [third] at same

/-- Settles O44: a step is the IRQ entry of 7 cycles, or the run of an instruction after a fetch that costs none. -/
theorem stepCostsTwoToSeven : Obligations.StepCostsTwoToSeven := by
  intro s t h
  obtain ⟨-, hq⟩ | ⟨-, i, u, hf, hx⟩ := step_next h
  · exact takeIrq_costsTwoToSeven hq
  · obtain ⟨dv, rfl, -⟩ := fetch_frame hf
    have cost : CostsTwoToSeven (s.setDev dv) t := exec_costsTwoToSeven hx
    exact cost

/-- Settles O6: a fetch is the reads of the bytes of the instruction they decode to, in order. -/
theorem stepRunsDecodedInstruction : Obligations.StepRunsDecodedInstruction := by
  refine ⟨fun s u i hi hf => ⟨step_of_fetch hi hf, ?pc⟩,
    fun s s1 op h1 => ⟨?absent, ?one, fun b1 s2 h2 => ⟨?two, ?three⟩⟩, fun s i rest hd hp => ?plain⟩
  case pc =>
    obtain ⟨dv, rfl, -⟩ := fetch_frame hf
    rfl
  case absent => exact fun ho => fetch_absent (lookupOpcode_eq_none_iff.2 ho) h1
  case one => exact fun i hd => fetch_of_decode hd ⟨s1, h1, rfl⟩
  case two => exact fun i hd => fetch_of_decode hd ⟨s1, h1, s2, h2, rfl⟩
  case three =>
    intro b2 s3 h3 i hd
    have third : s.pc + 2 = s.pc + 1 + 1 := (BitVec.add_assoc s.pc 1 1).symm
    rw [third] at h3
    exact fetch_of_decode hd ⟨s1, h1, s2, h2, s3, h3, rfl⟩
  case plain =>
    refine fetch_of_readsBytes (readsBytes_plain hp fun k hk => ?_)
    have bytes := encodeInvertsDecode _ _ _ hd
    have three : k < 3 := Nat.lt_of_lt_of_le hk (List.IsPrefix.length_le ⟨rest, bytes.symm⟩)
    rw [← List.getElem?_append_left hk (l₂ := rest), ← bytes]
    match k, three with
    | 0, _ => simp
    | 1, _ => rfl
    | 2, _ => rfl

/-- Settles O13: the model's stack operations with their addresses as arithmetic. -/
theorem stackOperations : Obligations.StackOperations := by
  refine ⟨fun s v => ?push, fun s => ?pull, fun s w => rfl, fun s s1 s2 lo hi h1 h2 => ?pull16⟩
  case push =>
    have decrement : s.sp - 1 = BitVec.ofNat 8 (s.sp.toNat + 255) := by bv_omega
    rw [push, stackAddr_eq_ofNat, decrement]
    rfl
  case pull =>
    have increment : s.sp + 1 = BitVec.ofNat 8 (s.sp.toNat + 1) := by bv_omega
    rw [pull, stackAddr_eq_ofNat, BitVec.toNat_add, increment]
    rfl
  case pull16 => rw [pull16_of_pulls h1 h2, joinBytes_eq_ofNat]

/-- Settles O51: the four tests of one iteration, each where the ones before it fail. -/
theorem batchTestsInOrder : Obligations.BatchTestsInOrder := by
  refine ⟨fun budget spent s hc => ?cancel, fun budget spent s pc u hc hs => ?invalid,
    fun budget spent s t hc hs hb => ?breakpoint, fun budget spent s t hc hs hb => ?budget⟩
  case cancel => simp only [batchIteration, hc, if_true]
  case invalid => simp only [batchIteration, hc, Bool.false_eq_true, if_false, hs]
  case breakpoint => rw [batchIteration_of_next hc hs, afterStep, if_pos hb]
  case budget => rw [batchIteration_of_next hc hs, afterStep, if_neg hb, stepCost]

end Sys2Proof.Machine
end

section
/-! What the loads, the stores and the transfers do (spec/40_load_store_transfer.md R200 to R211). One lemma per
access class turns how a list of forms runs into what its instructions answer. -/

namespace Sys2Proof.Machine

section
variable {s u : State} {len cost : Nat}

/-! ### Flags, lengths and the end of an instruction -/

/-- Z and N as arithmetic (R143). -/
theorem withNZ_eq_setNZ (v : Byte) (p : Flags) : withNZ v p = p.setNZ v := by
  have n : v.getLsbD 7 = decide (v.toNat ≥ 128) := BitVec.msb_eq_decide v
  have z : (v == 0) = decide (v.toNat = 0) := by
    rw [Bool.eq_iff_iff, beq_iff_eq, decide_eq_true_iff, ← BitVec.toNat_inj]
    rfl
  rw [withNZ, Flags.setNZ, n, z]

theorem MemMode.length_eq (m : MemMode) : m.length = m.bytes.length + 1 := by
  cases m <;> rfl

theorem ReadOperand.length_eq (o : ReadOperand) : o.length = o.bytes.length + 1 := by
  cases o with
  | imm v => rfl
  | mem m => exact m.length_eq

/-- Where nothing but the end of the instruction counts cycles, that end is the one R122 and R150 give. -/
theorem complete_eq_advanced (h : u.totalCycles = s.totalCycles) :
    complete (s.pc + BitVec.ofNat 16 len) cost u = advanced s len cost u := by
  rw [advanced, ← h]
  rfl

theorem readOperand_totalCycles {o : ReadOperand} {r : Byte × Bool} (h : readOperand o s = .ok (r, u)) :
    u.totalCycles = s.totalCycles := by
  obtain ⟨d, rfl, -⟩ := readOperand_frame h
  rfl

theorem effAddr_totalCycles {m : MemMode} {r : Word × Bool} (h : effAddr m s = .ok (r, u)) :
    u.totalCycles = s.totalCycles := by
  obtain ⟨d, rfl, -⟩ := effAddr_frame h
  rfl

theorem writeByte_totalCycles (a : Word) (v : Byte) (s : State) :
    (writeByte a v s).totalCycles = s.totalCycles := by
  obtain ⟨d, m, h, -⟩ := writeByte_frame a v s
  rw [h]
  rfl

end

/-! ### What each list of forms answers -/

/-- Forms that run as read-class instructions and are encoded as listed apply the effect to their operand. -/
theorem RunsReadClass.readsInto {forms : Byte → Word → List ReadForm} {effect : Byte → State → State}
    {mn : Mnemonic} (h : RunsReadClass forms effect)
    (henc : ∀ b w, (forms b w).map (encode ·.instr) = (forms b w).map fun f => f.opcode :: f.operand.bytes)
    (heff : ReadEffect mn effect) : ReadsInto forms effect := by
  intro b w f hf
  have enc : encode f.instr = f.opcode :: f.operand.bytes := List.map_inj_left.1 (henc b w) f hf
  refine ⟨enc, fun s m crossed u ho => ?_⟩
  have cycles : (effect m u).totalCycles = s.totalCycles :=
    (heff.totalCycles_eq m u).trans (readOperand_totalCycles ho)
  rw [h b w f hf, readClass_next_iff.2 ⟨m, crossed, u, ho, rfl⟩, complete_eq_advanced cycles, enc,
    ReadOperand.length_eq]
  rfl

/-- Forms that run as write-class instructions and are encoded as listed write the value at their address. -/
theorem RunsWriteClass.writesFrom {forms : Byte → Word → List WriteForm} {val : State → Byte}
    (h : RunsWriteClass forms val)
    (henc : ∀ b w, (forms b w).map (encode ·.instr) = (forms b w).map fun f => f.opcode :: f.operand.bytes) :
    WritesFrom forms val := by
  intro b w f hf
  have enc : encode f.instr = f.opcode :: f.operand.bytes := List.map_inj_left.1 (henc b w) f hf
  refine ⟨enc, fun s ea crossed u ho => ?_⟩
  have cycles : (writeByte ea (val s) u).totalCycles = s.totalCycles :=
    (writeByte_totalCycles ea (val s) u).trans (effAddr_totalCycles ho)
  rw [congrFun (h b w f hf) s, writeClass_next_iff.2 ⟨ea, crossed, u, ho, rfl⟩, complete_eq_advanced cycles, enc,
    MemMode.length_eq]
  rfl

/-- One-byte forms that are encoded as listed and run as their effect, which counts no cycles. -/
theorem runs_of_implied {forms : List PlainForm} (henc : forms.map (encode ·.instr) = forms.map ([·.opcode]))
    (hrun : forms.map (exec ·.instr) = forms.map fun f => implied f.cycles f.effect)
    (hcyc : ∀ f ∈ forms, ∀ s, (f.effect s).totalCycles = s.totalCycles) : Runs forms := by
  intro f hf
  refine ⟨List.map_inj_left.1 henc f hf, fun s => ?_⟩
  rw [List.map_inj_left.1 hrun f hf, ← complete_eq_advanced (hcyc f hf s)]
  rfl

/-! ### The obligations of spec/40_load_store_transfer.md -/

/-- Settles O14: every form runs as a read-class instruction with the register's load as its effect. -/
theorem loadsSetRegister : Obligations.LoadsSetRegister := by
  simp only [Obligations.LoadsSetRegister, withNZ_eq_setNZ]
  exact ⟨ldaForms_readClass.readsInto (fun _ _ => rfl) .lda, ldxForms_readClass.readsInto (fun _ _ => rfl) .ldx,
    ldyForms_readClass.readsInto (fun _ _ => rfl) .ldy⟩

/-- Settles O15: every form runs as a write-class instruction that stores the register. -/
theorem storesWriteRegister : Obligations.StoresWriteRegister :=
  ⟨staForms_writeClass.writesFrom fun _ _ => rfl, stxForms_writeClass.writesFrom fun _ _ => rfl,
    styForms_writeClass.writesFrom fun _ _ => rfl⟩

/-- Settles O16: every transfer runs as its effect, a copy into a register with Z and N, or for TXS without. -/
theorem transfersCopyRegister : Obligations.TransfersCopyRegister := by
  simp only [Obligations.TransfersCopyRegister, withNZ_eq_setNZ]
  refine runs_of_implied rfl rfl ?cycles
  case cycles => simp

end Sys2Proof.Machine
end

section
/-! What the stack instructions do (spec/41_stack_ops.md R220 to R223): the status byte as arithmetic, and the end of
an instruction that pulls a byte and puts it to use. -/

namespace Sys2Proof.Machine

/-! ### The status byte and a pull that completes -/

/-- The status byte as the sum of its bits (R24). -/
theorem serialize_toNat (p : Flags) (forceB : Bool) :
    (p.serialize forceB).toNat = p.n.toNat * 128 + p.v.toNat * 64 + 32 + (p.b || forceB).toNat * 16 +
      p.d.toNat * 8 + p.i.toNat * 4 + p.z.toNat * 2 + p.c.toNat := by
  have one : 1#1 = BitVec.ofBool true := rfl
  simp only [Flags.serialize, one, BitVec.append_ofBool, BitVec.toNat_concat, BitVec.toNat_ofBool, Bool.toNat_true]
  omega

/-- Bits 5 and 4 of a status byte with B forced are both 1 (R221). -/
theorem serialize_true_eq_ofNat (p : Flags) :
    p.serialize true = BitVec.ofNat 8 (p.n.toNat * 128 + p.v.toNat * 64 + 32 + 16 +
      p.d.toNat * 8 + p.i.toNat * 4 + p.z.toNat * 2 + p.c.toNat) := by
  rw [← BitVec.setWidth_eq (p.serialize true), ← BitVec.ofNat_toNat, serialize_toNat, Bool.or_true]
  rfl

theorem pull_totalCycles {s u : State} {v : Byte} (h : pull s = .ok (v, u)) : u.totalCycles = s.totalCycles := by
  obtain ⟨d, rfl, -⟩ := pull_frame h
  rfl

/-- A one-byte instruction that pulls a byte and applies an effect that counts no cycles. -/
theorem outcome_pull_complete {s u : State} {v : Byte} {cost : Nat} (f : Byte → State → State)
    (hf : (f v u).totalCycles = u.totalCycles) (h : pull s = .ok (v, u)) :
    outcome (pull s >>= fun r => .ok (complete (s.pc + 1) cost (f r.1 r.2))) =
      .next (advanced s 1 cost (f v u)) := by
  rw [h, ← complete_eq_advanced (hf.trans (pull_totalCycles h))]
  rfl

/-! ### The obligations of spec/41_stack_ops.md -/

/-- Settles O17: PHA and PHP run as a push, PHP of the status byte with B forced. -/
theorem pushInstructionsStore : Obligations.PushInstructionsStore := by
  simp only [Obligations.PushInstructionsStore, ← serialize_true_eq_ofNat]
  refine runs_of_implied rfl rfl ?cycles
  case cycles => simp [push_totalCycles]

/-- Settles O18: PLA and PLP complete with the pulled byte, loaded into A or into the flags. -/
theorem pullInstructionsLoad : Obligations.PullInstructionsLoad := by
  refine ⟨rfl, rfl, fun s u v h => ⟨?pla, ?plp⟩⟩
  case pla =>
    rw [withNZ_eq_setNZ]
    exact outcome_pull_complete loadA rfl h
  case plp => exact outcome_pull_complete (fun st t => t.setP (Flags.ofByte st)) rfl h

end Sys2Proof.Machine
end

section
/-! What addition, subtraction, logic, BIT and the comparisons do (spec/42_arith_logic.md R241 to R250). The model
corrects decimal digits by division and remainder, where the spec shifts and masks: the layer of lemmas below
equates the two, and the forms then run as read-class instructions with that effect. -/

namespace Sys2Proof.Machine

/-! ### Decimal digits -/

/-- The low digit of a byte, masked (R241). -/
theorem and_lowDigit_eq_mod (n : Nat) : n &&& 0x0F = n % 16 := Nat.and_two_pow_sub_one_eq_mod n 4

/-- Putting a low digit under a high digit by shift and mask, as arithmetic. -/
theorem shiftLeft_or_and_eq (hi lo : Nat) : (hi <<< 4) ||| (lo &&& 0x0F) = hi * 16 + lo % 16 := by
  rw [and_lowDigit_eq_mod, ← Nat.shiftLeft_add_eq_or_of_lt (Nat.mod_lt lo (by decide)), Nat.shiftLeft_eq]

/-- The digits of a decimal ADC (R241). -/
theorem decimalAddDigits_eq (a m : Byte) (c : Bool) :
    decimalAddDigits a.toNat m.toNat c.toNat = (decimalAddLow a m c, decimalAddHigh a m c) := by
  have high (n : Nat) : n >>> 4 = n / 16 := Nat.shiftRight_eq_div_pow n 4
  simp only [decimalAddDigits, and_lowDigit_eq_mod, high]
  rfl

/-- The digits of a decimal SBC (R242): the high digit pays the borrow of the low one. -/
theorem decimalSubDigits_eq (a m : Byte) (c : Bool) :
    decimalSubDigits a.toNat m.toNat c.toNat = (decimalSubLow a m c, decimalSubHigh a m c) := by
  have low (n : Nat) : ((n % 16 : Nat) : Int) = (n : Int) % 16 := Int.natCast_emod n 16
  have high (n : Nat) : ((n / 16 : Nat) : Int) = (n : Int) / 16 := Int.natCast_ediv n 16
  simp only [decimalSubDigits, decimalSubLow, decimalSubHigh, decimalSubBorrows, decide_eq_true_eq, low, high]
  split
  case isTrue borrow => rfl
  case isFalse noBorrow => rw [Int.sub_zero]

/-- The result byte of a decimal SBC, put together from the two's-complement bits of its digits (R242). -/
theorem ofInt_shiftLeft_or_and_eq (hi lo : Int) :
    (BitVec.ofInt 8 hi <<< 4) ||| (BitVec.ofInt 8 lo &&& 0x0F) = BitVec.ofInt 8 (hi * 16 + lo % 16) := by
  have digits (x y : Byte) : (x <<< 4) ||| (y &&& 0x0F) = BitVec.ofNat 8 (x.toNat * 16 + y.toNat % 16) := by
    rw [← shiftLeft_or_and_eq, BitVec.ofNat_or, BitVec.ofNat_and, BitVec.ofNat_toNat, BitVec.setWidth_eq]
    rfl
  apply BitVec.eq_of_toNat_eq
  simp only [digits, BitVec.toNat_ofNat, BitVec.toNat_ofInt]
  omega

/-! ### Addition and subtraction -/

/-- A result byte, carry and overflow with N and Z by `setNZ`. -/
def AluResult.ofSpec (res : Byte × Bool × Bool) : AluResult where
  r := res.1
  n := res.1.getLsbD 7
  v := res.2.2
  z := res.1 == 0
  c := res.2.1

theorem adcResult_eq_ofSpec (a m : Byte) (c d : Bool) : adcResult d a m c = .ofSpec (adcBySpec a m c d) := by
  cases d with
  | false => rfl
  | true =>
    simp only [adcBySpec, decimalAddDigits_eq, shiftLeft_or_and_eq]
    rfl

theorem sbcResult_eq_ofSpec (a m : Byte) (c d : Bool) : sbcResult d a m c = .ofSpec (sbcBySpec a m c d) := by
  cases d with
  | false => rfl
  | true =>
    simp only [sbcBySpec, decimalSubDigits_eq, ofInt_shiftLeft_or_and_eq]
    rfl

theorem writeAlu_ofSpec_exact {s : State} (h : s.p.d = false ∨ s.cfg.decimalNvz = .exact) (res : Byte × Bool × Bool) :
    writeAlu (.ofSpec res) s = arithExact res s := by
  have notDrawn : (s.p.d && decide (s.cfg.decimalNvz = .draw)) = false := by
    obtain h | h := h <;> simp [h]
  rw [arithExact, withNZ_eq_setNZ, writeAlu, notDrawn]
  rfl

theorem writeAlu_ofSpec_drawn (res : Byte × Bool × Bool) (s : State) :
    ∃ n v z k, writeAlu (.ofSpec res) s = arithDrawn res n v z k s := by
  obtain ⟨n, v, z, k, h⟩ := writeAlu_frame (.ofSpec res) s
  exact ⟨n, v, z, s.draws + k, h⟩

/-- Every form is encoded as listed, and whenever its operand can be read writes `spec`'s result byte, carry and
overflow of A, M, C and D: with N and Z by `setNZ`, or in decimal mode with `DECIMAL_NVZ = Draw` with N, V and Z of
which nothing is said (R250). -/
def WritesArith (forms : Byte → Word → List ReadForm) (spec : Byte → Byte → Bool → Bool → Byte × Bool × Bool) :
    Prop :=
  ∀ b w, ∀ f ∈ forms b w, encode f.instr = f.opcode :: f.operand.bytes ∧
    ∀ s m crossed u, readOperand f.operand s = .ok ((m, crossed), u) →
      (let res := spec s.a m s.p.c s.p.d
       let done (t : State) : Prop := exec f.instr s = .next (advanced s (encode f.instr).length
         (f.cycles + (if f.penalty && crossed then 1 else 0)) t)
       (s.p.d = false ∨ s.cfg.decimalNvz = .exact → done (arithExact res u)) ∧
       (s.p.d = true → s.cfg.decimalNvz = .draw → ∃ n v z k, done (arithDrawn res n v z k u)))

/-- Reading the operand leaves A, the flags and the parameters, so an effect that writes a result of the state after
the read writes that of the state begun in. -/
theorem ReadsInto.writesArith {forms : Byte → Word → List ReadForm} {effect : Byte → State → State}
    {spec : Byte → Byte → Bool → Bool → Byte × Bool × Bool} (h : ReadsInto forms effect)
    (heff : ∀ m u, effect m u = writeAlu (.ofSpec (spec u.a m u.p.c u.p.d)) u) : WritesArith forms spec := by
  intro b w f hf
  obtain ⟨enc, runs⟩ := h b w f hf
  refine ⟨enc, fun s m crossed u ho => ?_⟩
  rw [runs s m crossed u ho, heff]
  obtain ⟨d, rfl, -⟩ := readOperand_frame ho
  refine ⟨fun hx => ?exact, fun _ _ => ?drawn⟩
  case exact =>
    rw [writeAlu_ofSpec_exact (s := s.setDev d) hx]
    rfl
  case drawn =>
    obtain ⟨n, v, z, k, hw⟩ := writeAlu_ofSpec_drawn (spec s.a m s.p.c s.p.d) (s.setDev d)
    exact ⟨n, v, z, k, hw ▸ rfl⟩

/-! ### Comparison -/

/-- The difference modulo 256 without a negative number (R247). -/
theorem ofNat_toNat_sub_eq (r m : Byte) : BitVec.ofNat 8 (r.toNat + 256 - m.toNat) = r - m := by
  rw [BitVec.sub_def]
  congr 1
  omega

/-! ### The obligations of spec/42_arith_logic.md -/

/-- Settles O19: every form runs as a read-class instruction that writes the model's result, which is the spec's. -/
theorem adcAdds : Obligations.AdcAdds :=
  (adcForms_readClass.readsInto (fun _ _ => rfl) .adc).writesArith fun m u =>
    congrArg (writeAlu · u) (adcResult_eq_ofSpec u.a m u.p.c u.p.d)

/-- Settles O20: every form runs as a read-class instruction that writes the model's result, which is the spec's. -/
theorem sbcSubtracts : Obligations.SbcSubtracts :=
  (sbcForms_readClass.readsInto (fun _ _ => rfl) .sbc).writesArith fun m u =>
    congrArg (writeAlu · u) (sbcResult_eq_ofSpec u.a m u.p.c u.p.d)

/-- Settles O21: every form runs as a read-class instruction that loads A with the combination. -/
theorem logicCombinesIntoA : Obligations.LogicCombinesIntoA := by
  simp only [Obligations.LogicCombinesIntoA, withNZ_eq_setNZ]
  exact ⟨andForms_readClass.readsInto (fun _ _ => rfl) .and, oraForms_readClass.readsInto (fun _ _ => rfl) .ora,
    eorForms_readClass.readsInto (fun _ _ => rfl) .eor⟩

/-- Settles O22: both forms run as a read-class instruction whose effect is the bit test. -/
theorem bitTestsMemory : Obligations.BitTestsMemory :=
  bitForms_readClass.readsInto (fun _ _ => rfl) .bit

/-- Settles O23: every form runs as a read-class instruction that compares its register. -/
theorem comparesSetFlags : Obligations.ComparesSetFlags := by
  simp only [Obligations.ComparesSetFlags, withNZ_eq_setNZ, ofNat_toNat_sub_eq]
  exact ⟨cmpForms_readClass.readsInto (fun _ _ => rfl) .cmp, cpxForms_readClass.readsInto (fun _ _ => rfl) .cpx,
    cpyForms_readClass.readsInto (fun _ _ => rfl) .cpy⟩

end Sys2Proof.Machine
end

section
/-! What the increments, decrements, shifts and rotates do (spec/43_inc_dec_shift.md R270 to R279). The model's
read-modify-write functions are bit operations, the statements arithmetic modulo 256: one lemma per function equates
the two, and one lemma for the access class says what the forms that run with the function answer. -/

namespace Sys2Proof.Machine

/-! ### The new byte as arithmetic -/

theorem byte_add_one_eq_ofNat (m : Byte) : m + 1 = BitVec.ofNat 8 (m.toNat + 1) := BitVec.add_def m 1

theorem byte_sub_one_eq_ofNat (m : Byte) : m - 1 = BitVec.ofNat 8 (m.toNat + 255) := by
  rw [BitVec.sub_def, Nat.add_comm]
  rfl

theorem byte_shiftLeft_one_eq_ofNat (m : Byte) : m <<< 1 = BitVec.ofNat 8 (2 * m.toNat) := by
  apply BitVec.eq_of_toNat_eq
  rw [BitVec.toNat_shiftLeft, Nat.shiftLeft_eq, Nat.mul_comm, BitVec.toNat_ofNat]

theorem byte_shiftRight_one_eq_ofNat (m : Byte) : m >>> 1 = BitVec.ofNat 8 (m.toNat / 2) := by
  have half : (m >>> 1).toNat = m.toNat / 2 := Nat.shiftRight_eq_div_pow m.toNat 1
  rw [← half, BitVec.ofNat_toNat, BitVec.setWidth_eq]

theorem carry_setWidth_eq_ofNat (c : Bool) : (BitVec.ofBool c).setWidth 8 = BitVec.ofNat 8 c.toNat := by
  rw [← BitVec.ofNat_toNat, BitVec.toNat_ofBool]

theorem carry_shiftLeft_seven_eq_ofNat (c : Bool) :
    (BitVec.ofBool c).setWidth 8 <<< 7 = BitVec.ofNat 8 (c.toNat * 128) := by
  cases c <;> rfl

/-- The old carry enters bit 0, which the shift leaves free (R278). -/
theorem byte_shiftLeft_one_or_carry_eq_ofNat (m : Byte) (c : Bool) :
    (m <<< 1) ||| (BitVec.ofBool c).setWidth 8 = BitVec.ofNat 8 (2 * m.toNat + c.toNat) := by
  have disjoint : 2 * m.toNat + c.toNat = 2 * m.toNat ||| c.toNat :=
    Nat.two_pow_add_eq_or_of_lt (i := 1) c.toNat_lt m.toNat
  rw [disjoint, BitVec.ofNat_or, byte_shiftLeft_one_eq_ofNat, carry_setWidth_eq_ofNat]

/-- The old carry enters bit 7, which the shift leaves free (R279). -/
theorem byte_carry_or_shiftRight_one_eq_ofNat (m : Byte) (c : Bool) :
    ((BitVec.ofBool c).setWidth 8 <<< 7) ||| (m >>> 1) = BitVec.ofNat 8 (c.toNat * 128 + m.toNat / 2) := by
  have disjoint : c.toNat * 128 + m.toNat / 2 = c.toNat * 128 ||| m.toNat / 2 := by
    rw [Nat.mul_comm]
    exact Nat.two_pow_add_eq_or_of_lt (i := 7) (Nat.div_lt_of_lt_mul m.isLt) c.toNat
  rw [disjoint, BitVec.ofNat_or, carry_shiftLeft_seven_eq_ofNat, byte_shiftRight_one_eq_ofNat]

/-! ### What each list of read-modify-write forms answers -/

theorem readByte_totalCycles {a : Word} {v : Byte} {s u : State} (h : readByte a s = .ok (v, u)) :
    u.totalCycles = s.totalCycles := by
  obtain ⟨d, rfl, -⟩ := readByte_frame h
  rfl

/-- Forms that run as read-modify-write instructions and are encoded as listed apply the function to their operand. -/
theorem RunsRmwClass.rmwApplies {forms : Byte → Word → List RmwForm} {fn : RmwFn} (h : RunsRmwClass forms fn)
    (henc : ∀ b w, (forms b w).map (encode ·.instr) = (forms b w).map fun f => f.opcode :: f.operand.bytes) :
    RmwApplies forms fn := by
  intro b w k hk
  have enc : encode k.instr = k.opcode :: k.operand.bytes := List.map_inj_left.1 (henc b w) k hk
  refine ⟨enc, ?_⟩
  rw [h b w k hk, enc]
  cases k.operand with
  | acc => exact rmwClass_acc k.cycles fn
  | mem m =>
    intro s ea crossed u v u' he hr
    have cycles : (writeByte ea (fn v s.p).1 u').totalCycles = s.totalCycles :=
      (writeByte_totalCycles ea (fn v s.p).1 u').trans ((readByte_totalCycles hr).trans (effAddr_totalCycles he))
    rw [rmwClass_mem_next_iff.2 ⟨ea, crossed, u, v, u', he, hr, rfl⟩,
      complete_eq_advanced (u := (writeByte ea (fn v s.p).1 u').setP (fn v s.p).2) cycles, MemMode.length_eq]
    rfl

/-! ### The obligations of spec/43_inc_dec_shift.md -/

/-- Settles O24: every form runs as a read-modify-write instruction that adds or takes one. -/
theorem incDecChangeMemory : Obligations.IncDecChangeMemory := by
  simp only [Obligations.IncDecChangeMemory, withNZ_eq_setNZ, ← byte_add_one_eq_ofNat, ← byte_sub_one_eq_ofNat]
  exact ⟨incForms_rmwClass.rmwApplies fun _ _ => rfl, decForms_rmwClass.rmwApplies fun _ _ => rfl⟩

/-- Settles O26: every form runs as a read-modify-write instruction that shifts by one. -/
theorem shiftsMoveBits : Obligations.ShiftsMoveBits := by
  simp only [Obligations.ShiftsMoveBits, withNZ_eq_setNZ, ← byte_shiftLeft_one_eq_ofNat,
    ← byte_shiftRight_one_eq_ofNat]
  exact ⟨aslForms_rmwClass.rmwApplies fun _ _ => rfl, lsrForms_rmwClass.rmwApplies fun _ _ => rfl⟩

/-- Settles O27: every form runs as a read-modify-write instruction that rotates through the carry. -/
theorem rotatesMoveBits : Obligations.RotatesMoveBits := by
  simp only [Obligations.RotatesMoveBits, withNZ_eq_setNZ, ← byte_shiftLeft_one_or_carry_eq_ofNat,
    ← byte_carry_or_shiftRight_one_eq_ofNat]
  exact ⟨rolForms_rmwClass.rmwApplies fun _ _ => rfl, rorForms_rmwClass.rmwApplies fun _ _ => rfl⟩

/-- Settles O25: each instruction runs as a load of its register with the value one more or one less. -/
theorem incDecChangeRegister : Obligations.IncDecChangeRegister := by
  simp only [Obligations.IncDecChangeRegister, withNZ_eq_setNZ]
  refine runs_of_implied rfl rfl ?cycles
  case cycles => simp

end Sys2Proof.Machine
end

section
/-! What the branches, the jumps, JSR, RTS, BRK and RTI do (spec/44_control_transfer.md R300 to R313). An instruction
that finds its destination by bus accesses goes there whenever the accesses answer; the round trips through JSR and
BRK read back the bytes the pushes stored in plain stack slots. -/

namespace Sys2Proof.Machine

section
variable {s u : State} {w : Word} {hi lo st : Byte}

/-! ### Branches -/

/-- The target of a branch on the signed displacement (R133, R300). -/
theorem branchTarget_eq_ofInt (pc0 : Word) (d : Byte) :
    branchTarget pc0 d = BitVec.ofInt 16 (((pc0 + 2).toNat : Int) + d.toInt) := by
  rw [BitVec.ofInt_add, BitVec.ofInt_natCast, BitVec.ofNat_toNat, BitVec.setWidth_eq]
  rfl

/-- The cost of a branch, with the page of its target against that of the next instruction (R152, R300). -/
theorem branchPenalty_eq (pc0 : Word) (d : Byte) (taken : Bool) :
    2 + branchPenalty pc0 d taken = if taken then
      (if (branchTarget pc0 d).toNat / 256 ≠ (pc0 + 2).toNat / 256 then 4 else 3) else 2 := by
  simp only [branchPenalty, pageCrossed_eq, decide_eq_true_eq, ne_comm (a := (pc0 + 2).toNat / 256)]
  split
  case isTrue goes => split <;> rfl
  case isFalse stays => rfl

/-- Forms that are encoded as listed and run as branches on their condition go to the next instruction or the target
(R300). -/
theorem branchForms_exec {forms : List BranchForm}
    (henc : ∀ d, forms.map (fun f => encode (f.instr d)) = forms.map fun f => [f.opcode, d])
    (hrun : ∀ d s, forms.map (fun f => exec (f.instr d) s) = forms.map fun f => branch (f.cond s.p) d s) :
    ∀ f ∈ forms, ∀ (d : Byte) (s : State), encode (f.instr d) = [f.opcode, d] ∧
      exec (f.instr d) s = .next { s with
        pc := if f.cond s.p then branchTarget s.pc d else s.pc + 2
        totalCycles := s.totalCycles + (if f.cond s.p then
          (if (branchTarget s.pc d).toNat / 256 ≠ (s.pc + 2).toNat / 256 then 4 else 3) else 2) } := by
  intro f hf d s
  refine ⟨List.map_inj_left.1 (henc d) f hf, ?_⟩
  rw [List.map_inj_left.1 (hrun d s) f hf, ← branchPenalty_eq]
  rfl

/-! ### Going to a destination found on the bus -/

/-- The end of an instruction, where only that end counts cycles (R150). -/
theorem complete_eq_of_totalCycles (w : Word) (cost : Nat) (h : u.totalCycles = s.totalCycles) :
    complete w cost u = { u with pc := w, totalCycles := s.totalCycles + cost } := by
  rw [← h]
  rfl

/-- An instruction that finds a word and goes where `dest` says. -/
theorem outcome_bind_complete {r : Except Fault (Word × State)} (dest : Word → Word) (cost : Nat)
    (h : r = .ok (w, u)) :
    outcome (r >>= fun p => .ok (complete (dest p.1) cost p.2)) = .next (complete (dest w) cost u) := by
  rw [h]
  rfl

theorem exec_jmpInd_of_target {ptr : Word} (h : indirectTarget ptr s = .ok (w, u)) :
    exec (.jmpInd ptr) s = .next (complete w 5 u) := outcome_bind_complete id 5 h

theorem exec_jsr (w : Word) (s : State) : exec (.jsr w) s = .next (complete w 6 (push16 (s.pc + 2) s)) := rfl

theorem exec_rts_of_pull16 (h : pull16 s = .ok (w, u)) : exec .rts s = .next (complete (w + 1) 6 u) :=
  outcome_bind_complete (· + 1) 6 h

theorem exec_rti_of_leaveTrap (h : leaveTrap s = .ok (w, u)) : exec .rti s = .next (complete w 6 u) :=
  outcome_bind_complete id 6 h

theorem exec_brk_of_enterTrap (h : enterTrap (s.pc + 2) (s.p.serialize true) true s = .ok (w, u)) :
    exec .brk s = .next (complete w 7 u) := outcome_bind_complete id 7 h

theorem readPair_of_reads {l h : Word} {s1 : State} (h1 : readByte l s = .ok (lo, s1))
    (h2 : readByte h s1 = .ok (hi, u)) : readPair l h s = .ok (joinBytes hi lo, u) := by
  simp only [readPair, h1, h2, bind, Except.bind]

theorem leaveTrap_of_pulls {s1 : State} (h1 : pull s = .ok (st, s1))
    (h2 : pull16 (s1.setP (Flags.ofByte st)) = .ok (w, u)) : leaveTrap s = .ok (w, u) := by
  simp only [leaveTrap, h1, h2, bind, Except.bind]

theorem readPair_totalCycles {l h : Word} (hr : readPair l h s = .ok (w, u)) : u.totalCycles = s.totalCycles := by
  obtain ⟨d, rfl, -⟩ := readPair_frame hr
  rfl

theorem push16_totalCycles (w : Word) (s : State) : (push16 w s).totalCycles = s.totalCycles :=
  (push_totalCycles _ _).trans (push_totalCycles _ s)

theorem pull16_totalCycles (h : pull16 s = .ok (w, u)) : u.totalCycles = s.totalCycles := by
  obtain ⟨d, rfl, -⟩ := pull16_frame h
  rfl

theorem leaveTrap_totalCycles (h : leaveTrap s = .ok (w, u)) : u.totalCycles = s.totalCycles := by
  obtain ⟨d, p, rfl⟩ := leaveTrap_frame h
  rfl

theorem enterTrap_totalCycles {ret : Word} {isBrk : Bool} (h : enterTrap ret st isBrk s = .ok (w, u)) :
    u.totalCycles = s.totalCycles := by
  obtain ⟨d, m, rfl, -⟩ := enterTrap_frame h
  rfl

/-! ### Plain stack slots -/

theorem stackAddr_injective : Function.Injective stackAddr := by
  intro a b h
  simp only [stackAddr, ← BitVec.toNat_inj, BitVec.toNat_add, zext16_toNat] at h
  bv_omega

theorem stackAddr_ne_sub_one (sp : Byte) : stackAddr sp ≠ stackAddr (sp - 1) :=
  stackAddr_injective.ne (by bv_omega)

theorem stackAddr_ne_sub_two (sp : Byte) : stackAddr sp ≠ stackAddr (sp - 1 - 1) :=
  stackAddr_injective.ne (by bv_omega)

/-- A push to a plain slot stores its byte there and changes no other byte. -/
theorem push_stores (v : Byte) (hm : Mem.wf s.mem = true) (hw : s.plainWrite (stackAddr s.sp) = true) :
    ∃ m, push v s = (s.setMem m).setSp (s.sp - 1) ∧ Mem.wf m = true ∧ Mem.read m (stackAddr s.sp) = v ∧
      ∀ a, a ≠ stackAddr s.sp → Mem.read m a = Mem.read s.mem a :=
  ⟨_, push_plain v hw, Mem.write_wf _ v hm, Mem.read_write_same _ v hm, fun _ ha => Mem.read_write_other _ v ha⟩

/-- A 16-bit push to plain slots leaves the high byte above the low byte. -/
theorem push16_stores (w : Word) (hm : Mem.wf s.mem = true) (hw1 : s.plainWrite (stackAddr s.sp) = true)
    (hw2 : s.plainWrite (stackAddr (s.sp - 1)) = true) :
    ∃ m, push16 w s = (s.setMem m).setSp (s.sp - 1 - 1) ∧ Mem.wf m = true ∧
      Mem.read m (stackAddr s.sp) = hiByte w ∧ Mem.read m (stackAddr (s.sp - 1)) = loByte w := by
  obtain ⟨m1, h1, wf1, high, -⟩ := push_stores (hiByte w) hm hw1
  obtain ⟨m2, h2, wf2, low, same⟩ := push_stores (s := (s.setMem m1).setSp (s.sp - 1)) (loByte w) wf1 hw2
  exact ⟨m2, by rw [push16, h1, h2]; rfl, wf2, (same _ (stackAddr_ne_sub_one s.sp)).trans high, low⟩

/-- Entering a trap with plain slots and a plain vector leaves the return address above the status byte. -/
theorem enterTrap_stores (ret : Word) (st : Byte) (isBrk : Bool) (hm : Mem.wf s.mem = true)
    (hw1 : s.plainWrite (stackAddr s.sp) = true) (hw2 : s.plainWrite (stackAddr (s.sp - 1)) = true)
    (hw3 : s.plainWrite (stackAddr (s.sp - 1 - 1)) = true) (hl : s.plainRead 0xFFFE = true)
    (hh : s.plainRead 0xFFFF = true) :
    ∃ m target, enterTrap ret st isBrk s = .ok (target,
        ((s.setMem m).setSp (s.sp - 1 - 1 - 1)).setP { s.p with i := true, b := s.p.b || isBrk }) ∧
      Mem.read m (stackAddr s.sp) = hiByte ret ∧ Mem.read m (stackAddr (s.sp - 1)) = loByte ret ∧
      Mem.read m (stackAddr (s.sp - 1 - 1)) = st := by
  obtain ⟨m1, h1, wf1, high, low⟩ := push16_stores ret hm hw1 hw2
  obtain ⟨m, h2, -, status, same⟩ := push_stores (s := (s.setMem m1).setSp (s.sp - 1 - 1)) st wf1 hw3
  refine ⟨m, joinBytes (Mem.read m 0xFFFF) (Mem.read m 0xFFFE), ?_, (same _ (stackAddr_ne_sub_two s.sp)).trans high,
    (same _ (stackAddr_ne_sub_one (s.sp - 1))).trans low, status⟩
  rw [enterTrap_eq, h1, h2]
  exact readPair_plain hl hh

section
variable {sp : Byte}

/-- A pull from a plain slot gives the byte it holds. -/
theorem pull_of_slot (hsp : s.sp = sp - 1) (hr : s.plainRead (stackAddr sp) = true)
    (hv : Mem.read s.mem (stackAddr sp) = lo) : pull s = .ok (lo, s.setSp sp) := by
  have top : s.sp + 1 = sp := by rw [hsp, BitVec.sub_add_cancel]
  rw [pull_plain (by rwa [top]), top, hv]

theorem pull16_of_slots (hsp : s.sp = sp - 1 - 1) (hr1 : s.plainRead (stackAddr sp) = true)
    (hr2 : s.plainRead (stackAddr (sp - 1)) = true) (hhi : Mem.read s.mem (stackAddr sp) = hi)
    (hlo : Mem.read s.mem (stackAddr (sp - 1)) = lo) : pull16 s = .ok (joinBytes hi lo, s.setSp sp) :=
  pull16_of_pulls (pull_of_slot hsp hr2 hlo) (pull_of_slot rfl hr1 hhi)

theorem leaveTrap_of_slots (hsp : s.sp = sp - 1 - 1 - 1) (hr1 : s.plainRead (stackAddr sp) = true)
    (hr2 : s.plainRead (stackAddr (sp - 1)) = true) (hr3 : s.plainRead (stackAddr (sp - 1 - 1)) = true)
    (hhi : Mem.read s.mem (stackAddr sp) = hi) (hlo : Mem.read s.mem (stackAddr (sp - 1)) = lo)
    (hst : Mem.read s.mem (stackAddr (sp - 1 - 1)) = st) :
    leaveTrap s = .ok (joinBytes hi lo, (s.setP (Flags.ofByte st)).setSp sp) :=
  leaveTrap_of_pulls (pull_of_slot hsp hr3 hst)
    (pull16_of_slots (s := (s.setSp (sp - 1 - 1)).setP (Flags.ofByte st)) rfl hr1 hr2 hhi hlo)

end

/-- The flags come back from a status byte, but for B (R24, R25). -/
@[simp] theorem ofByte_serialize (p : Flags) (forceB : Bool) :
    Flags.ofByte (p.serialize forceB) = { p with b := false } := by
  have one : 1#1 = BitVec.ofBool true := rfl
  simp only [Flags.ofByte, Flags.serialize, one, BitVec.append_ofBool]
  simp [BitVec.getElem_concat]

end

/-! ### The obligations of spec/44_control_transfer.md -/

/-- Settles O28: every listed instruction runs as a branch on its condition. -/
theorem branchesTestFlag : Obligations.BranchesTestFlag := by
  have next (pc0 : Word) : BitVec.ofNat 16 (pc0.toNat + 2) = pc0 + 2 := (BitVec.add_def pc0 2).symm
  simp only [Obligations.BranchesTestFlag, next, ← branchTarget_eq_ofInt]
  exact branchForms_exec (fun _ => rfl) fun _ _ => rfl

/-- Settles O29: the indirect form goes to the word that its two pointer reads give. -/
theorem jmpSetsPc : Obligations.JmpSetsPc := by
  refine ⟨fun w => ⟨rfl, rfl⟩, fun w s => rfl, fun w s s1 s2 lo hi h1 h2 => ?_⟩
  rw [← indirectHigh_eq] at h2
  have target : indirectTarget w s = .ok (joinBytes hi lo, s2) := readPair_of_reads h1 h2
  rw [exec_jmpInd_of_target target, complete_eq_of_totalCycles _ 5 (readPair_totalCycles target), joinBytes_eq_ofNat]

/-- Settles O30: JSR is the 16-bit push of pc0 + 2 and the jump. -/
theorem jsrPushesReturn : Obligations.JsrPushesReturn :=
  by
  refine fun w s => ⟨rfl, ?_⟩
  rw [exec_jsr, complete_eq_of_totalCycles w 6 (push16_totalCycles (s.pc + 2) s)]
  rfl

/-- Settles O31: RTS goes to one past the word that its two pulls give. -/
theorem rtsPullsReturn : Obligations.RtsPullsReturn := by
  refine ⟨rfl, fun s s1 s2 lo hi h1 h2 => ?_⟩
  have pulled := pull16_of_pulls h1 h2
  rw [exec_rts_of_pull16 pulled, complete_eq_of_totalCycles _ 6 (pull16_totalCycles pulled), joinBytes_eq_ofNat,
    BitVec.ofNat_add _ 1]
  rfl

/-- Settles O32: the pulls are those of leaving a trap, and the flags are those of the pulled status byte. -/
theorem rtiRestoresStatusAndPc : Obligations.RtiRestoresStatusAndPc := by
  refine ⟨rfl, fun s s1 s2 s3 p lo hi h1 h2 h3 => ?_⟩
  have left : leaveTrap s = .ok (joinBytes hi lo, s3) := leaveTrap_of_pulls h1 (pull16_of_pulls h2 h3)
  rw [exec_rti_of_leaveTrap left, complete_eq_of_totalCycles _ 6 (leaveTrap_totalCycles left), joinBytes_eq_ofNat]

/-- Settles O33: the pushes and the vector reads are those of entering a trap with B forced. -/
theorem brkTakesTrap : Obligations.BrkTakesTrap := by
  refine ⟨rfl, fun s u lo hi u1 h1 h2 => ?_⟩
  have entered : enterTrap (s.pc + 2) (s.p.serialize true) true s = .ok (joinBytes hi lo, u) := by
    rw [enterTrap_eq, Bool.or_true]
    exact readPair_of_reads h1 h2
  rw [exec_brk_of_enterTrap entered, complete_eq_of_totalCycles _ 7 (enterTrap_totalCycles entered),
    joinBytes_eq_ofNat]

/-- Settles O35: RTS pulls the two bytes that JSR pushed, and adds the 1 back. -/
theorem rtsReturnsPastJsr : Obligations.RtsReturnsPastJsr := by
  intro w s hm slots
  obtain ⟨r1, w1⟩ := slots _ (.inl rfl)
  obtain ⟨r2, w2⟩ := slots _ (.inr rfl)
  obtain ⟨m, hpush, -, high, low⟩ := push16_stores (s.pc + 2) hm w1 w2
  have jsr := exec_jsr w s
  rw [hpush] at jsr
  exact ⟨_, _, jsr, exec_rts_of_pull16 (pull16_of_slots rfl r1 r2 high low), by simp [BitVec.add_assoc]⟩

/-- Settles O36: RTI pulls the three bytes that BRK pushed; the status byte holds every flag but B. -/
theorem rtiReturnsPastBrk : Obligations.RtiReturnsPastBrk := by
  intro s hm slots hl hh
  have third : s.sp - 2 = s.sp - 1 - 1 := by bv_omega
  rw [third] at slots
  obtain ⟨r1, w1⟩ := slots _ (.inl rfl)
  obtain ⟨r2, w2⟩ := slots _ (.inr (.inl rfl))
  obtain ⟨r3, w3⟩ := slots _ (.inr (.inr rfl))
  obtain ⟨m, target, entered, high, low, status⟩ :=
    enterTrap_stores (s.pc + 2) (s.p.serialize true) true hm w1 w2 w3 hl hh
  rw [Bool.or_true] at entered
  exact ⟨_, _, exec_brk_of_enterTrap entered, rfl, rfl,
    exec_rti_of_leaveTrap (leaveTrap_of_slots rfl r1 r2 r3 high low status), by simp⟩

end Sys2Proof.Machine
end

section
/-! What the flag instructions and NOP do (spec/45_flag_misc.md R330 to R337): one-byte instructions whose only effect,
but for the end of the instruction, is the one flag they write. -/

namespace Sys2Proof.Machine

/-- Settles O34: each flag instruction runs as the write of its flag, NOP as no effect; none counts cycles itself. -/
theorem flagInstructionsWriteOneFlag : Obligations.FlagInstructionsWriteOneFlag := by
  refine runs_of_implied rfl rfl ?cycles
  case cycles => simp

end Sys2Proof.Machine
end

section
/-! The GCR codec (spec/51_gcr_codec.md R450 to R472): each half of the 6-and-2 code is undone on its own, the XOR chain
with its translation by `chainDecode`, the pre-nibblizing by `joinValues`; and the length of a track buffer. -/

namespace Sys2Proof.Machine

/-! ### The 6-and-2 table -/

theorem t62_mem (v : BitVec 6) : t62 v ∈ t62Table := by
  rw [t62, List.getD_eq_getElem _ _ v.isLt]
  exact List.getElem_mem _

/-- No two values of the table are the same, so a nibble of the table gives its value back (R454). -/
@[simp] theorem inv62_t62 : ∀ v : BitVec 6, inv62 (t62 v) = some v := by decide

/-! ### The XOR chain -/

@[simp] theorem chainEncode_length (prev : BitVec 6) (vs : List (BitVec 6)) :
    (chainEncode prev vs).length = vs.length + 1 := by
  induction vs generalizing prev with
  | nil => rfl
  | cons v vs ih => simp only [chainEncode, List.length_cons, ih]

theorem mem_t62Table_of_mem_chainEncode {x : Byte} {prev : BitVec 6} {vs : List (BitVec 6)}
    (h : x ∈ chainEncode prev vs) : x ∈ t62Table := by
  induction vs generalizing prev with
  | nil => exact List.mem_singleton.1 h ▸ t62_mem prev
  | cons v vs ih =>
    rcases List.mem_cons.1 h with rfl | h
    · exact t62_mem _
    · exact ih h

/-- A nibble of the table before the checksum gives one value, and the chain goes on from it (R457). -/
theorem chainDecode_cons (u prev : BitVec 6) (k : Nat) {ns : List Byte} {vs : List (BitVec 6)} (hn : ns ≠ [])
    (h : chainDecode (u ^^^ prev) (k + 1) ns = .ok vs) :
    chainDecode prev k (t62 u :: ns) = .ok ((u ^^^ prev) :: vs) := by
  cases ns with
  | nil => exact absurd rfl hn
  | cons m ns => simp only [chainDecode, inv62_t62, h]

/-- The chain is undone from whatever value it began with. -/
theorem chainDecode_chainEncode (prev : BitVec 6) (k : Nat) (vs : List (BitVec 6)) :
    chainDecode prev k (chainEncode prev vs) = .ok vs := by
  induction vs generalizing prev k with
  | nil => simp [chainEncode, chainDecode]
  | cons v vs ih =>
    have undone : v ^^^ prev ^^^ prev = v := by rw [BitVec.xor_assoc, BitVec.xor_self, BitVec.xor_zero]
    have rest : chainEncode v vs ≠ [] := List.ne_nil_of_length_pos (by simp)
    have step := chainDecode_cons (v ^^^ prev) prev k (vs := vs) rest (by rw [undone]; exact ih v (k + 1))
    rwa [undone] at step

/-! ### Pre-nibblizing -/

/-- Only the two low bits of a `swap2` can be set. -/
theorem swap2_getElem_high (b : Byte) (i : Nat) (hi : i + 2 < 6) : (swap2 b)[i + 2] = false := by
  simp [swap2]

/-- The three bit pairs of an auxiliary value, each read back at its place (R455, R457). -/
theorem swap2_packed (a b c : Byte) :
    (swap2 a ||| swap2 b <<< 2 ||| swap2 c <<< 4) &&& 3 = swap2 a ∧
      ((swap2 a ||| swap2 b <<< 2 ||| swap2 c <<< 4) >>> 2) &&& 3 = swap2 b ∧
      ((swap2 a ||| swap2 b <<< 2 ||| swap2 c <<< 4) >>> 4) &&& 3 = swap2 c := by
  refine ⟨?_, ?_, ?_⟩ <;>
  · refine BitVec.eq_of_getLsbD_eq fun i hi => ?_
    interval_cases i <;> simp [swap2_getElem_high]

/-- Past the end of a sector there is nothing to pack, so every auxiliary value is the pack of three bytes. -/
theorem auxValue_eq {d : List Byte} (hd : d.length = 256) (i : Nat) :
    auxValue d i = swap2 (d.getD i 0) ||| swap2 (d.getD (i + 86) 0) <<< 2 ||| swap2 (d.getD (i + 172) 0) <<< 4 := by
  rw [auxValue]
  split
  case isTrue inside => rfl
  case isFalse past =>
    rw [List.getD_eq_default (n := i + 172) _ _ (by omega)]
    rfl

/-- Auxiliary value `j` holds the low bits of the three bytes 86 apart from `j` on (R455). -/
theorem auxValue_pair {d : List Byte} (hd : d.length = 256) (j : Nat) {q : Nat} (hq : q < 3) :
    (auxValue d j >>> (2 * q)) &&& 3 = swap2 (d.getD (j + 86 * q) 0) := by
  obtain ⟨first, second, third⟩ := swap2_packed (d.getD j 0) (d.getD (j + 86) 0) (d.getD (j + 172) 0)
  rw [auxValue_eq hd]
  match q, hq with
  | 0, _ => simpa using first
  | 1, _ => exact second
  | 2, _ => exact third

/-- A byte is its top six bits and its two low bits, exchanged twice. -/
theorem byte_of_values : ∀ b : Byte,
    ((b >>> 2).setWidth 6).setWidth 8 <<< 2 ||| (swap2 ((swap2 b).setWidth 8)).setWidth 8 = b := by decide

theorem prenibblize_length {d : List Byte} (hd : d.length = 256) : (prenibblize d).length = 342 := by
  simp [prenibblize, hd]

theorem prenibblize_getD_aux (d : List Byte) {j : Nat} (hj : j < 86) : (prenibblize d).getD j 0 = auxValue d j := by
  rw [prenibblize, List.getD_append _ _ _ _ (by simpa using hj)]
  simp [hj]

theorem prenibblize_getD_top {d : List Byte} {i : Nat} (hi : i < d.length) :
    (prenibblize d).getD (86 + i) 0 = (d.getD i 0 >>> 2).setWidth 6 := by
  rw [prenibblize, List.getD_append_right _ _ _ _ (by simp)]
  simp [hi]

/-- Joining undoes the pre-nibblizing, byte by byte. -/
theorem joinValues_prenibblize {d : List Byte} (hd : d.length = 256) {i : Nat} (hi : i < 256) :
    joinValues (prenibblize d) i = d.getD i 0 := by
  rw [joinValues, prenibblize_getD_aux d (Nat.mod_lt i (by decide)), prenibblize_getD_top (hd ▸ hi),
    auxValue_pair hd (i % 86) (by omega), Nat.mod_add_div]
  exact byte_of_values _

/-! ### The data field of a sector -/

theorem encodeSector_length {d : List Byte} (hd : d.length = 256) : (encodeSector d).length = 343 := by
  rw [encodeSector, chainEncode_length, prenibblize_length hd]

theorem decodeSector_encodeSector {d : List Byte} (hd : d.length = 256) : decodeSector (encodeSector d) = .ok d := by
  have joined : (List.range 256).map (joinValues (prenibblize d)) = d := by
    refine List.ext_getElem (by simp [hd]) fun i hi hi' => ?_
    rw [List.getElem_map, List.getElem_range, joinValues_prenibblize hd (hd ▸ hi'), List.getD_eq_getElem]
  rw [decodeSector, encodeSector, chainDecode_chainEncode]
  exact congrArg Except.ok joined

/-! ### Track buffers -/

section
variable {image sector : List Byte}

theorem dataField_length (hd : sector.length = 256) : (dataField sector).length = 349 := by
  simp [dataField, encodeSector_length hd]

theorem sectorField_length (cfg : Config) (vol t p : Byte) (hd : sector.length = 256) :
    (sectorField cfg vol t p sector).length = sectorFieldLen cfg := by
  have address : (addressField vol t p).length = 14 := rfl
  simp only [sectorField, syncBytes, List.length_append, List.length_replicate, address, dataField_length hd,
    sectorFieldLen]
  omega

theorem Interleave.table_lt (order : Interleave) : ∀ p < 16, order.table.getD p 0 < 16 := by
  cases order <;> decide

section
variable (hlen : image.length = 143360)
include hlen

theorem imageSector_length {t s : Nat} (ht : t < 35) (hs : s < 16) : (imageSector image t s).length = 256 := by
  rw [imageSector, List.length_take, List.length_drop]
  omega

theorem trackBuffer_length (cfg : Config) {t : Nat} (ht : t < 35) (vol : Byte) (order : Interleave) :
    (trackBuffer cfg image t vol order).length = trackLen cfg := by
  have field : ∀ p ∈ List.range 16, (sectorField cfg vol (BitVec.ofNat 8 t) (BitVec.ofNat 8 p)
      (imageSector image t (order.table.getD p 0))).length = sectorFieldLen cfg := fun p hp =>
    sectorField_length cfg vol _ _ (imageSector_length hlen ht (order.table_lt p (List.mem_range.1 hp)))
  rw [trackBuffer, List.length_flatMap, List.map_congr_left field, List.map_const', List.sum_replicate]
  rfl

theorem length_of_mem_imageTracks {cfg : Config} {order : Interleave} {t : List Byte}
    (h : t ∈ imageTracks cfg image order) : t.length = trackLen cfg := by
  obtain ⟨k, hk, rfl⟩ := List.mem_map.1 h
  exact trackBuffer_length hlen cfg (List.mem_range.1 hk) _ _

theorem encodeTrack_eq_imageTracks_getD (cfg : Config) (order : Interleave) {k : Nat} (hk : k < 35) :
    encodeTrack cfg image k cfg.volume order = .ok ((imageTracks cfg image order).getD k []) := by
  rw [encodeTrack, if_pos ⟨hlen, hk⟩, imageTracks, List.getD_eq_getElem _ _ (by simpa using hk),
    List.getElem_map, List.getElem_range]

end
end

/-! ### The obligations of spec/51_gcr_codec.md -/

/-- Settles O59: the entry points accept the two sizes, and each half of the code is undone. -/
theorem sixAndTwoRoundTrip : Obligations.SixAndTwoRoundTrip := by
  intro d hd
  have size := encodeSector_length hd
  refine ⟨encodeSector d, if_pos hd, size, fun x hx => mem_t62Table_of_mem_chainEncode hx, ?_⟩
  rw [sixAndTwoDecode, dataNibbles, if_pos size, decodeSector_encodeSector hd]

/-- Settles O58: truncation to a byte commutes with the bit operations of the formula; the code is checked byte by byte. -/
theorem fourAndFourRoundTrip : Obligations.FourAndFourRoundTrip := by
  refine ⟨fun e1 e2 => ?formula, by decide⟩
  case formula =>
    have double : e1 <<< 1 = BitVec.ofNat 8 (2 * e1.toNat) := byte_shiftLeft_one_eq_ofNat e1
    rw [BitVec.ofNat_and, BitVec.ofNat_or, ← double, BitVec.ofNat_toNat, BitVec.setWidth_eq]
    rfl

end Sys2Proof.Machine
end

section
/-! The Disk II controller (spec/50_disk_controller.md R400 to R430): what each soft switch, phase change and data
strobe makes of the drive, said once per case, and the accesses to the controller's windows through the bus. -/

namespace Sys2Proof.Machine

section
variable {cfg : Config} {d : Drive} {img : DiskImage} {v : Option Byte}

/-! ### Soft switches -/

theorem strobeIndex_eq (a : Word) : strobeIndex a = a.toNat % 16 := by
  rw [strobeIndex, BitVec.toNat_and]
  exact Nat.and_two_pow_sub_one_eq_mod a.toNat 4

/-- The sub-commands below 8 are the phases, off and on by turns (R404). -/
theorem applySwitch_phase (cfg : Config) {n : Nat} (hn : n < 8) (d : Drive) :
    applySwitch cfg n d = setPhase cfg ⟨n / 2, by omega⟩ (decide (n % 2 = 1)) d := by
  interval_cases n <;> rfl

/-! ### The phase stepper -/

section
variable {q h : Nat}

theorem steppedHead_inward (hq : q = (h % 4 + 1) % 4) : steppedHead cfg q h = min (h + 1) (headMax cfg) :=
  if_pos (by omega)

theorem steppedHead_outward (hq : q = (h % 4 + 3) % 4) : steppedHead cfg q h = h - 1 := by
  rw [steppedHead, if_neg (by omega), if_pos (by omega)]

theorem steppedHead_stays (hq : q = h % 4 ∨ q = (h % 4 + 2) % 4) : steppedHead cfg q h = h := by
  rw [steppedHead, if_neg (by omega), if_neg (by omega)]

end

theorem setPhase_headPos_of_rises {q : Fin 4} {on : Bool} (h : on = true ∧ d.phases[q] = false) :
    (setPhase cfg q on d).headPos = steppedHead cfg q.val d.headPos := by
  simp [setPhase, h.1, h.2]

theorem setPhase_headPos_of_not_rises {q : Fin 4} {on : Bool} (h : ¬ (on = true ∧ d.phases[q] = false)) :
    (setPhase cfg q on d).headPos = d.headPos :=
  if_neg (by simpa using h)

/-! ### Data strobes -/

/-- With a disk a strobe is its switch, then the data strobe of the mode in force (R403). -/
theorem diskAccess_of_disk (hd : d.disk = some img) (a : Word) (v : Option Byte) :
    diskAccess cfg a v d = strobeData cfg img v (applySwitch cfg (a.toNat % 16) d) := by
  simp only [diskAccess, (applySwitch_media cfg _ d).2.1, hd, strobeIndex_eq]

theorem advanceMedia_eq (len : Nat) (d : Drive) : advanceMedia len d = { d with
    mediaPosition := if d.motorOn then (d.mediaPosition + 1) % len else d.mediaPosition } := by
  rw [advanceMedia]
  split <;> rfl

theorem strobeData_read (h6 : d.q6 = false) (h7 : d.q7 = false) :
    strobeData cfg img none d = (nibbleAt img (currentTrack cfg d) d.mediaPosition,
      advanceMedia (trackAt img (currentTrack cfg d)).length d) := by
  simp only [strobeData, h6, h7]

theorem strobeData_sense (h6 : d.q6 = true) (h7 : d.q7 = false) :
    strobeData cfg img none d = (if img.writeProtect then 0x80 else 0x00, d) := by
  simp only [strobeData, h6, h7]

/-- A written value does nothing in the Read and Sense modes. -/
theorem strobeData_some (h7 : d.q7 = false) (w : Byte) : strobeData cfg img (some w) d = (0x00, d) := by
  cases h6 : d.q6 <;> simp only [strobeData, h6, h7]

theorem strobeData_write (h6 : d.q6 = false) (h7 : d.q7 = true) :
    strobeData cfg img v d = (0x00, advanceMedia (trackAt img (currentTrack cfg d)).length { d with
      disk := some (if img.writeProtect then img
        else writeNibble img (currentTrack cfg d) d.mediaPosition d.writeLatch) }) := by
  simp only [strobeData, h6, h7]

theorem strobeData_writeLoad (h6 : d.q6 = true) (h7 : d.q7 = true) :
    strobeData cfg img v d = (0x00, { d with writeLatch := v.getD d.writeLatch }) := by
  cases v with
  | none => exact (show strobeData cfg img none d = (0x00, d) by simp only [strobeData, h6, h7])
  | some w => simp only [strobeData, h6, h7, Option.getD_some]

/-- Inside the track buffer the nibble under the head is the buffer's. -/
theorem getElem?_eq_nibbleAt {t pos : Nat} (h : pos < (trackAt img t).length) :
    (trackAt img t)[pos]? = some (nibbleAt img t pos) := by
  rw [nibbleAt, List.getElem?_eq_getElem h]

/-- A write in place of the image's tracks, or none on a protected disk (R423). -/
theorem writtenImage_eq (img : DiskImage) (t pos : Nat) (w : Byte) :
    (if img.writeProtect then img else writeNibble img t pos w) = { img with
      tracks := if img.writeProtect then img.tracks else img.tracks.set t ((trackAt img t).set pos w) } := by
  split <;> rfl

/-! ### The controller's windows -/

theorem Hook.covers_iff {h : Hook} {a : Word} :
    h.covers a = true ↔ h.lo.toNat ≤ a.toNat ∧ a.toNat ≤ h.hi.toNat := by
  rw [Hook.covers, Bool.and_eq_true, decide_eq_true_iff, decide_eq_true_iff]

section
variable (hslot : cfg.slotOk = true)
include hslot

theorem diskSlot_bounds : 1 ≤ cfg.diskSlot ∧ cfg.diskSlot ≤ 7 := by
  rwa [Config.slotOk, Bool.and_eq_true, decide_eq_true_iff, decide_eq_true_iff] at hslot

theorem diskIoLo_toNat : (diskIoLo cfg).toNat = 0xC080 + 0x10 * cfg.diskSlot := by
  have slot := diskSlot_bounds hslot
  rw [diskIoLo, BitVec.toNat_ofNat]
  omega

theorem diskIoHi_toNat : (diskIoHi cfg).toNat = 0xC08F + 0x10 * cfg.diskSlot := by
  have slot := diskSlot_bounds hslot
  have lo := diskIoLo_toNat hslot
  rw [diskIoHi]
  bv_omega

theorem diskRomLo_toNat : (diskRomLo cfg).toNat = 0xC000 + 0x100 * cfg.diskSlot := by
  have slot := diskSlot_bounds hslot
  rw [diskRomLo, BitVec.toNat_ofNat]
  omega

theorem diskRomHi_toNat : (diskRomHi cfg).toNat = 0xC0FF + 0x100 * cfg.diskSlot := by
  have slot := diskSlot_bounds hslot
  have lo := diskRomLo_toNat hslot
  rw [diskRomHi]
  bv_omega

/-- A hook on the strobe window covers the 16 strobe addresses (R400). -/
theorem strobeWindow_covers {n : Nat} (hn : n < 16) (cb : Callback) :
    (Hook.mk (diskIoLo cfg) (diskIoHi cfg) false cb).covers
      (BitVec.ofNat 16 (0xC080 + 0x10 * cfg.diskSlot + n)) = true := by
  have slot := diskSlot_bounds hslot
  rw [Hook.covers_iff, diskIoLo_toNat hslot, diskIoHi_toNat hslot, BitVec.toNat_ofNat]
  omega

/-- A hook on the card ROM window covers its 256 addresses, and one on the strobe window none of them (R400). -/
theorem romWindow_covers {k : Nat} (hk : k < 256) (cb cb' : Callback) :
    (Hook.mk (diskIoLo cfg) (diskIoHi cfg) false cb').covers
        (BitVec.ofNat 16 (0xC000 + 0x100 * cfg.diskSlot + k)) = false ∧
      (Hook.mk (diskRomLo cfg) (diskRomHi cfg) false cb).covers
        (BitVec.ofNat 16 (0xC000 + 0x100 * cfg.diskSlot + k)) = true := by
  have slot := diskSlot_bounds hslot
  rw [← Bool.not_eq_true, Hook.covers_iff, Hook.covers_iff, diskIoLo_toNat hslot, diskIoHi_toNat hslot,
    diskRomLo_toNat hslot, diskRomHi_toNat hslot, BitVec.toNat_ofNat, Nat.mod_eq_of_lt (by omega)]
  omega

end

section
variable {s : State} (hdisk : s.hasDisk) (hslot : s.cfg.slotOk = true)
include hdisk hslot

/-- A read of a strobe address is the controller's (R401). -/
theorem readByte_strobe {n : Nat} (hn : n < 16) :
    readByte (BitVec.ofNat 16 (0xC080 + 0x10 * s.cfg.diskSlot + n)) s =
      (let r := diskAccess s.cfg (BitVec.ofNat 16 (0xC080 + 0x10 * s.cfg.diskSlot + n)) none s.dev.drive
       .ok (r.1, s.setDev { s.dev with drive := r.2 })) := by
  obtain ⟨⟨rest, hooks⟩, -⟩ := hdisk
  refine readByte_of_scan_value ?_
  rw [hooks]
  exact scanRead_consumed (strobeWindow_covers hslot hn _) rfl rfl

theorem writeByte_strobe {n : Nat} (hn : n < 16) (v : Byte) :
    writeByte (BitVec.ofNat 16 (0xC080 + 0x10 * s.cfg.diskSlot + n)) v s = s.setDev { s.dev with
      drive := (diskAccess s.cfg (BitVec.ofNat 16 (0xC080 + 0x10 * s.cfg.diskSlot + n)) (some v) s.dev.drive).2 } := by
  obtain ⟨-, rest, hooks⟩ := hdisk
  refine writeByte_of_scan_consumed ?_
  rw [hooks]
  exact scanWrite_consumed (strobeWindow_covers hslot hn _) rfl

/-- A write in the card ROM window goes to a callback that does nothing (R401). -/
theorem writeByte_rom {k : Nat} (hk : k < 256) (v : Byte) :
    writeByte (BitVec.ofNat 16 (0xC000 + 0x100 * s.cfg.diskSlot + k)) v s = s := by
  obtain ⟨-, rest, hooks⟩ := hdisk
  obtain ⟨past, covered⟩ := romWindow_covers hslot hk .diskRomWrite .diskStrobe
  refine (writeByte_of_scan_consumed (d := s.dev) ?_).trans s.setDev_self
  rw [hooks, diskWriteHooks, List.cons_append, scanWrite, if_neg (by rw [past]; decide)]
  exact scanWrite_consumed covered rfl

end

/-! ### Reads in a row -/

/-- What a read of the data latch serves from: the controller's hooks in place, a disk in a drive in its ranges, the
motor on and Q7 off. -/
structure Serving (img : DiskImage) (s : State) : Prop where
  slotOk : s.cfg.slotOk = true
  hooks : s.hasDisk
  driveWf : s.dev.drive.wf s.cfg = true
  disk : s.dev.drive.disk = some img
  motorOn : s.dev.drive.motorOn = true
  q7 : s.dev.drive.q7 = false

/-- The address of the read-data strobe, sub-command 12 (R404). -/
def latchAddr (cfg : Config) : Word := BitVec.ofNat 16 (0xC08C + 0x10 * cfg.diskSlot)

/-- The machine after one read of the data latch: Q6 off and the media one position on (R404, R415). -/
def State.afterLatchRead (s : State) : State :=
  s.setDev { s.dev with drive := { s.dev.drive with
    q6 := false, mediaPosition := (s.dev.drive.mediaPosition + 1) % trackLen s.cfg } }

/-- The nibble `j` positions past the head, round the circle. -/
def State.nibbleAhead (img : DiskImage) (s : State) (j : Nat) : Byte :=
  (trackAt img (currentTrack s.cfg s.dev.drive)).getD ((s.dev.drive.mediaPosition + j) % trackLen s.cfg) 0x00

theorem latchAddr_eq (cfg : Config) : latchAddr cfg = BitVec.ofNat 16 (0xC080 + 0x10 * cfg.diskSlot + 12) := by
  rw [latchAddr, Nat.add_right_comm]

section
variable {s : State}

/-- One position on the circle and `j` more are `j + 1`. -/
theorem mod_succ_add_mod (p j len : Nat) : ((p + 1) % len + j) % len = (p + (j + 1)) % len := by
  rw [Nat.mod_add_mod, Nat.add_right_comm, Nat.add_assoc]

/-- After a read the next nibble ahead is the one that was second. -/
theorem nibbleAhead_afterLatchRead (j : Nat) :
    s.afterLatchRead.nibbleAhead img j = s.nibbleAhead img (j + 1) :=
  congrArg (List.getD (trackAt img (currentTrack s.cfg s.dev.drive)) · 0x00) (mod_succ_add_mod _ j _)

theorem Serving.track_length (h : Serving img s) :
    (trackAt img (currentTrack s.cfg s.dev.drive)).length = trackLen s.cfg := by
  obtain ⟨head, -, fits⟩ := (Drive.wf_iff _ _).1 h.driveWf
  exact trackAt_length (fits img h.disk) (currentTrack_lt head)

theorem Serving.afterLatchRead (h : Serving img s) : Serving img s.afterLatchRead := by
  obtain ⟨head, -, fits⟩ := (Drive.wf_iff _ _).1 h.driveWf
  exact ⟨h.slotOk, h.hooks, (Drive.wf_iff _ _).2 ⟨head, Nat.mod_lt _ (trackLen_pos s.cfg), fits⟩, h.disk, h.motorOn,
    h.q7⟩

/-- One read of the data latch serves the nibble under the head (R419). -/
theorem Serving.readByte_latch (h : Serving img s) :
    readByte (latchAddr s.cfg) s = .ok (s.nibbleAhead img 0, s.afterLatchRead) := by
  obtain ⟨-, media, -⟩ := (Drive.wf_iff _ _).1 h.driveWf
  have sub : (latchAddr s.cfg).toNat % 16 = 12 := by
    have slot := diskSlot_bounds h.slotOk
    rw [latchAddr, BitVec.toNat_ofNat]
    omega
  have under : nibbleAt img (currentTrack s.cfg s.dev.drive) s.dev.drive.mediaPosition = s.nibbleAhead img 0 := by
    rw [State.nibbleAhead, Nat.add_zero, Nat.mod_eq_of_lt media, List.getD_eq_getElem?_getD,
      getElem?_eq_nibbleAt (h.track_length ▸ media), Option.getD_some]
  have spun : advanceMedia (trackLen s.cfg) { s.dev.drive with q6 := false } = s.afterLatchRead.dev.drive :=
    if_pos h.motorOn
  have served : diskAccess s.cfg (latchAddr s.cfg) none s.dev.drive =
      (s.nibbleAhead img 0, s.afterLatchRead.dev.drive) := by
    rw [diskAccess_of_disk h.disk, sub, ← under, ← spun, ← h.track_length]
    exact strobeData_read (d := applySwitch s.cfg 12 s.dev.drive) rfl h.q7
  have read := readByte_strobe h.hooks h.slotOk (n := 12) (by decide)
  rw [← latchAddr_eq, served] at read
  exact read

theorem readsInARow_succ {a : Word} {b : Byte} {bs : List Byte} {k : Nat} {s1 u : State}
    (h1 : readByte a s = .ok (b, s1)) (h2 : readsInARow a k s1 = .ok (bs, u)) :
    readsInARow a (k + 1) s = .ok (b :: bs, u) := by
  simp only [readsInARow, h1, h2, bind, Except.bind]

/-- Reads in a row serve the nibbles ahead, in order. -/
theorem Serving.readsInARow_latch (h : Serving img s) (k : Nat) :
    ∃ u, readsInARow (latchAddr s.cfg) k s = .ok ((List.range k).map (s.nibbleAhead img), u) ∧
      u.dev.drive.mediaPosition = (s.dev.drive.mediaPosition + k) % trackLen s.cfg := by
  induction k generalizing s with
  | zero =>
    obtain ⟨-, media, -⟩ := (Drive.wf_iff _ _).1 h.driveWf
    exact ⟨s, rfl, (Nat.mod_eq_of_lt media).symm⟩
  | succ k ih =>
    obtain ⟨u, reads, media⟩ := ih h.afterLatchRead
    have shifted : s.afterLatchRead.nibbleAhead img = s.nibbleAhead img ∘ Nat.succ := funext nibbleAhead_afterLatchRead
    refine ⟨u, ?_, media.trans (mod_succ_add_mod s.dev.drive.mediaPosition k _)⟩
    rw [List.range_succ_eq_map, List.map_cons, List.map_map, ← shifted]
    exact readsInARow_succ h.readByte_latch reads

end
end

/-! ### Attaching -/

/-- The disk that an image file becomes in the drive (R430, R471). -/
def diskOfImage (cfg : Config) (image : List Byte) (wp : Bool) (order : Interleave) : DiskImage where
  tracks := imageTracks cfg image order
  writeProtect := wp
  order := order

/-- The machine with a disk put in its drive, the media at position 0 (R430). -/
def State.insertDisk (img : DiskImage) (s : State) : State :=
  s.setDev { s.dev with drive := { s.dev.drive with disk := some img, mediaPosition := 0 } }

theorem attachDiskImage_of_order {image : List Byte} {ext : String} {order : Interleave}
    (hlen : image.length = 143360) (ho : orderOfExtension ext = some order) (wp : Bool) (s : State) :
    attachDiskImage (some image) ext wp s = .ok (s.insertDisk (diskOfImage s.cfg image wp order)) := by
  rw [attachDiskImage, imageBytes, if_neg (not_not_intro hlen), ho]
  rfl

theorem orderOfExtension_known {ext : String} (h : ext = ".do" ∨ ext = ".dsk" ∨ ext = ".po") :
    orderOfExtension ext = some (if ext = ".po" then .prodos else .dos33) := by
  rcases h with rfl | rfl | rfl <;> rfl

theorem diskOfImage_tracks_length (cfg : Config) (image : List Byte) (wp : Bool) (order : Interleave) :
    (diskOfImage cfg image wp order).tracks.length = 35 := by
  simp [diskOfImage, imageTracks]

/-- A disk put in a good machine's drive keeps the machine good if the disk fits (R35). -/
theorem State.insertDisk_wf {s : State} {img : DiskImage} (hs : s.wf = true) (hi : img.wf s.cfg = true) :
    (s.insertDisk img).wf = true := by
  simp only [State.wf, Bool.and_eq_true, Drive.wf_iff] at hs ⊢
  obtain ⟨⟨parts, head, -, -⟩, breakpoints⟩ := hs
  exact ⟨⟨parts, head, trackLen_pos s.cfg, fun _ h => Option.some.inj h ▸ hi⟩, breakpoints⟩

/-! ### The obligations of spec/50_disk_controller.md -/

/-- Settles O53: the strobe hook is the first to cover a strobe address, and the ROM hook a ROM address. -/
theorem strobeWindowReachesController : Obligations.StrobeWindowReachesController :=
  fun _ _ hdisk hslot hn => ⟨readByte_strobe hdisk hslot hn, writeByte_strobe hdisk hslot hn,
    fun _ v hk => writeByte_rom hdisk hslot hk v⟩

/-- Settles O54: the phases apart, each sub-command is its row of the table. -/
theorem softSwitchesSetOneLatch : Obligations.SoftSwitchesSetOneLatch := by
  refine ⟨fun cfg d n hn => ?table, fun cfg d a v hd => ?noDisk⟩
  case table =>
    split
    case isTrue phase => exact applySwitch_phase cfg phase d
    case isFalse latch => interval_cases n <;> rfl
  case noDisk => rw [diskAccess_noDisk a v hd, strobeIndex_eq]

/-- Settles O55: the head by the three places a rising phase can have to it; the walk runs in both models. -/
theorem stepperMovesOneStep : Obligations.StepperMovesOneStep := by
  refine ⟨fun cfg q on d hd => ?step, fun cfg d hh hp => ?walk⟩
  case step =>
    have head : (setPhase cfg q on d).headPos ≤ headMax cfg := setPhase_headPos_le hd
    refine ⟨by simp [setPhase], fun r hr => ?others, head, Nat.le_of_lt_succ (currentTrack_lt head), rfl,
      setPhase_headPos_of_not_rises, fun rises hq room => ?inward, fun rises hq top => ?stopped,
      fun rises hq => ?outward, fun rises hq => ?stays⟩
    case others => exact Vector.getElem_set_ne q.isLt r.isLt fun e => hr (Fin.ext e.symm)
    case inward | stopped =>
      rw [setPhase_headPos_of_rises rises, steppedHead_inward hq]
      omega
    case outward => rw [setPhase_headPos_of_rises rises, steppedHead_outward hq]
    case stays => rw [setPhase_headPos_of_rises rises, steppedHead_stays hq]
  case walk =>
    cases hs : cfg.stepper <;> simp [afterPhases, setPhase, steppedHead, currentTrack, headMax, hs, hh, hp]

/-- Settles O56: the strobe is that of the mode the switch leaves, at a position inside the track. -/
theorem dataStrobesFollowMode : Obligations.DataStrobesFollowMode := by
  intro cfg d d1 img a v hw hd hs
  have access := diskAccess_of_disk (cfg := cfg) hd a v
  have disk : d1.disk = some img := hs ▸ (applySwitch_media cfg _ d).2.1.trans hd
  obtain ⟨head, media, fits⟩ := (Drive.wf_iff cfg d1).1 (hs ▸ applySwitch_wf _ hw)
  have len : (trackAt img (currentTrack cfg d1)).length = trackLen cfg :=
    trackAt_length (fits img disk) (currentTrack_lt head)
  rw [hs] at access
  rw [access]
  refine ⟨len, fun h6 h7 hv => ?read, fun h6 h7 hv => ?readWritten, fun h6 h7 hv => ?sense,
    fun h6 h7 hv => ?senseWritten, fun h6 h7 => ?write, fun h6 h7 => strobeData_writeLoad h6 h7⟩
  case read =>
    refine ⟨_, getElem?_eq_nibbleAt (len ▸ media), ?_⟩
    rw [hv, strobeData_read h6 h7, advanceMedia_eq, len]
  case sense => rw [hv, strobeData_sense h6 h7]
  case write =>
    rw [strobeData_write h6 h7, advanceMedia_eq, writtenImage_eq, len]
    rfl
  case readWritten | senseWritten =>
    obtain ⟨w, rfl⟩ := Option.ne_none_iff_exists'.1 hv
    exact strobeData_some h7 w

/-- Settles O57: the track has the track length, and the drive serves the nibbles ahead. -/
theorem readsServeTrackInOrder : Obligations.ReadsServeTrackInOrder := by
  intro s img k hwf hdisk hd hm h7
  simp only [State.wf, Config.wf, Bool.and_eq_true] at hwf
  obtain ⟨⟨⟨⟨⟨⟨⟨slot, -⟩, -⟩, -⟩, -⟩, -⟩, drive⟩, -⟩ := hwf
  have serving : Serving img s := ⟨slot, hdisk, drive, hd, hm, h7⟩
  obtain ⟨u, reads, media⟩ := serving.readsInARow_latch k
  have len : ((img.tracks[currentTrack s.cfg s.dev.drive]?).getD []).length = trackLen s.cfg := serving.track_length
  dsimp only
  rw [len]
  exact ⟨_, u, reads, rfl, media⟩

/-- Settles O60: the call answers with the disk of the image inserted, whose tracks have the track length. -/
theorem attachBuildsDisk : Obligations.AttachBuildsDisk := by
  intro image ext wp s hlen hext
  have attached := attachDiskImage_of_order hlen (orderOfExtension_known hext) wp s
  have count := diskOfImage_tracks_length s.cfg image wp (if ext = ".po" then .prodos else .dos33)
  refine ⟨_, attached, rfl, rfl, count, fun t ht => length_of_mem_imageTracks hlen ht,
    fun k hk => encodeTrack_eq_imageTracks_getD hlen _ _ hk, fun hs => ⟨_, attached, State.insertDisk_wf hs ?fits⟩⟩
  case fits => exact (DiskImage.wf_iff _ _).2 ⟨count, fun t ht => length_of_mem_imageTracks hlen ht⟩

end Sys2Proof.Machine
end

section
/-! The IRQ entry, the resets and the batch loop's overshoot (spec/60_exceptions.md R505, R506;
spec/70_reset_and_hazards.md R552, R553, R565). -/

namespace Sys2Proof.Machine

section
variable {s t u : State} {budget spent : Nat}

/-! ### The IRQ entry -/

theorem irqPending_iff : irqPending s = true ↔ s.cfg.hasIrqInput = true ∧ s.irqLine = true ∧ s.p.i = false := by
  simp only [irqPending, Bool.and_eq_true, Bool.not_eq_true', and_assoc]

theorem takeIrq_of_enterTrap {target : Word}
    (h : enterTrap s.pc (s.p.serialize true &&& 0xEF) false s = .ok (target, u)) :
    takeIrq s = .next (complete target 7 u) := outcome_bind_complete id 7 h

/-! ### The batch loop -/

/-- An iteration ends in the tests after a step, or stops for another reason than its budget (R161). -/
theorem batchIteration_cases (budget spent : Nat) (s : State) :
    (∃ t, step s = .next t ∧ batchIteration budget spent s = afterStep budget (spent + stepCost s t) t) ∨
      ∃ r, batchIteration budget spent s = .done r ∧ ∀ t, r ≠ .stopped .budgetExhausted t := by
  rw [batchIteration]
  split
  case isTrue cancelled => exact .inr ⟨_, rfl, by simp⟩
  case isFalse _ =>
    split
    case h_1 t hs => exact .inl ⟨t, hs, rfl⟩
    all_goals exact .inr ⟨_, rfl, by simp⟩

theorem batchLoop_of_done {r : BatchResult} (fuel : Nat) (h : batchIteration budget spent s = .done r) :
    batchLoop budget (fuel + 1) spent s = r := by
  rw [batchLoop, h]

theorem batchLoop_of_more {spent' : Nat} (fuel : Nat) (h : batchIteration budget spent s = .more spent' t) :
    batchLoop budget (fuel + 1) spent s = batchLoop budget fuel spent' t := by
  rw [batchLoop, h]

/-- `spent` counts the cycles of the batch so far, and the fuel is more than the budget has left of them. -/
theorem batchLoop_overshoot (fuel : Nat) (hs : spent ≤ budget) (hf : budget < spent + fuel)
    (h : batchLoop budget fuel spent s = .stopped .budgetExhausted t) :
    s.totalCycles + budget < t.totalCycles + spent ∧ t.totalCycles + spent ≤ s.totalCycles + budget + 7 := by
  induction fuel generalizing spent s with
  | zero => omega
  | succ fuel ih =>
    obtain ⟨u, hu, hi⟩ | ⟨r, hi, other⟩ := batchIteration_cases budget spent s
    · obtain ⟨low, high⟩ := stepCostsTwoToSeven _ _ hu
      rw [afterStep, stepCost] at hi
      split at hi
      case isTrue stop => exact absurd ((batchLoop_of_done fuel hi).symm.trans h) nofun
      case isFalse _ =>
        split at hi
        case isTrue past =>
          cases (batchLoop_of_done fuel hi).symm.trans h
          omega
        case isFalse within =>
          have rest := ih (by omega) (by omega) ((batchLoop_of_more fuel hi).symm.trans h)
          omega
    · exact absurd ((batchLoop_of_done fuel hi).symm.trans h) (other t)

end

/-! ### The obligations of spec/60_exceptions.md and spec/70_reset_and_hazards.md -/

/-- Settles O7: without the input nothing is pending; with it, the pushes and reads are those of entering a trap with B
as it was. -/
theorem irqEntryTakesVector : Obligations.IrqEntryTakesVector := by
  refine ⟨fun s u i hin hf => step_of_fetch ?noInput hf, fun s u target hin hline hi h => ?entry⟩
  case noInput => simp [irqPending, hin]
  case entry =>
    have entered : enterTrap s.pc (s.p.serialize true &&& 0xEF) false s = .ok (target, u) := by
      simp only [enterTrap, Bool.or_false]
      exact h
    rw [step_of_irqPending (irqPending_iff.2 ⟨hin, hline, hi⟩), takeIrq_of_enterTrap entered,
      complete_eq_of_totalCycles target 7 (enterTrap_totalCycles entered)]

/-- Settles O49: the two reads are those of the vector's word. -/
theorem warmResetReadsVector : Obligations.WarmResetReadsVector := by
  intro s s1 s2 lo hi h1 h2
  have vector : read16 resetVector ((s.setSp 0xFF).setP { s.p with i := true }) = .ok (joinBytes hi lo, s2) :=
    readPair_of_reads h1 h2
  rw [warmReset, vector, ← joinBytes_eq_ofNat]
  rfl

/-- Settles O50: the cleared memory is `clearBelow`, which zeroes the bytes below ROM_BASE and no other. -/
theorem coldResetClearsRam : Obligations.ColdResetClearsRam := by
  intro s hm hb
  refine ⟨clearBelow s.cfg.romBase s.mem, fun a below => ?_, fun a above => ?_, clearBelow_wf hb hm, rfl⟩
  · rw [clearBelow_read, if_pos below]
  · rw [clearBelow_read, if_neg (Nat.not_lt.2 above)]

/-- Settles O52: at the start of a batch nothing is spent, and the fuel is one more than the budget. -/
theorem batchOvershootsBySeven : Obligations.BatchOvershootsBySeven := by
  intro budget s t h
  have overshoot := batchLoop_overshoot (budget + 1) (Nat.zero_le budget) (by omega) h
  omega

end Sys2Proof.Machine
end
